-- ==== Sys2Proof/Word.lean ====
section
/-! DEFINITION. The data values of the LSXGT frame codec: bytes, byte strings and 64-bit results
(spec/00_scope.md R8, R9). -/

namespace Sys2Proof

/-- A byte, an integer in 0..255 (R8). -/
abbrev Byte := BitVec 8

/-- A byte string, a finite sequence of bytes (R9). A text string is the byte string of its ASCII codes. -/
abbrev Bytes := List Byte

/-- An unsigned 64-bit integer (R7 `ACC_WIDTH`, R271). -/
abbrev U64 := BitVec 64

end Sys2Proof
end

