-- ==== Sys2Proof/Config.lean ====
section
/-! DEFINITION. The parameters of the block (spec/00_scope.md R7). The two that the spec leaves OPEN are
opaque constants: nothing can be proved of their value beyond the bound that the spec sets. The free value of R351
stands beside them. -/

namespace Sys2Proof

/-- What the OPEN parameter `G_UNKNOWN` may be: a group width of 2, 4, 8 or 16 hex characters, or FAULT
(spec/92_eei_decisions.md D8; R7). -/
inductive GUnknown where
  | width2
  | width4
  | width8
  | width16
  | fault
  deriving DecidableEq, Repr, Inhabited

/-- `G_UNKNOWN`, OPEN (R7, R138, D8). No proof can depend on which of the five it is. Assumption log 8. -/
opaque Config.gUnknown : GUnknown

/-- `RX_MAX_LEN - 1`, OPEN (R7, D18). Assumption log 9. -/
opaque Config.rxMaxLenPred : Nat

/-- `RX_MAX_LEN`, the bound that `receive` is given: a positive integer and nothing more is known of it
(R7, D18). -/
def Config.rxMaxLen : Nat := Config.rxMaxLenPred + 1

/-- How many bytes of FRAME the transport had taken when the `n`-th abandoned `send` was cut off by a reset: a
free value, since R351 leaves it open and the block cannot know it. Assumption log 6. -/
opaque Config.handedOver (n : Nat) : Nat

/-- `RESP_WIDTH_OFFSET`, the offset of the value width in a response (R7, R262). -/
def Config.respWidthOffset : Nat := 30

/-- `VALUE_MAX` = 2^64 − 1 (R7, R133, D6). -/
def Config.valueMax : Nat := 2 ^ 64 - 1

end Sys2Proof
end

