-- ==== Sys2Proof/Syntax.lean ====
section
/-! DEFINITION. The instruction forms, the instruction block as data, and the caller's command
(spec/30_encoding.md R93, R94, R98, R103; spec/10_state.md R32, R33, R36). -/

namespace Sys2Proof

/-- The request kind (R33). -/
inductive Kind where
  | read
  | write
  deriving DecidableEq, Repr

/-- The data type (R33, R36). -/
inductive DataType where
  | bit
  | byte
  | word
  | dword
  | lword
  | unknown
  deriving DecidableEq, Repr

/-- The 12 instruction forms `<KIND>.<TYPE>` of R98, one constructor per row of spec/opcode_table.json.
A form has no explicit operand: its operands are the registers ADDR_CSV and, for a write, VAL_CSV
(R190 to R201). DESIGN CHOICE, assumption log 1. -/
inductive Instr where
  /-- READ.BIT (R190) -/
  | readBit
  /-- READ.BYTE (R191) -/
  | readByte
  /-- READ.WORD (R192) -/
  | readWord
  /-- READ.DWORD (R193) -/
  | readDword
  /-- READ.LWORD (R194) -/
  | readLword
  /-- READ.UNKNOWN (R195) -/
  | readUnknown
  /-- WRITE.BIT (R196) -/
  | writeBit
  /-- WRITE.BYTE (R197) -/
  | writeByte
  /-- WRITE.WORD (R198) -/
  | writeWord
  /-- WRITE.DWORD (R199) -/
  | writeDword
  /-- WRITE.LWORD (R200) -/
  | writeLword
  /-- WRITE.UNKNOWN (R201) -/
  | writeUnknown
  deriving DecidableEq, Repr

/-- A device as an item of an instruction block names it: its class letter and its suffix (R94, R161). -/
structure Device where
  letter : Byte
  suffix : Bytes
  deriving DecidableEq, Repr

/-- An instruction block as data (format INS, R93): the form that its head word names, the devices of its
items in order, and the value payload of a write, byte for byte. The payload stays bytes because the value
blocks of R96 have no delimiter; assumption log 14. -/
structure Block where
  form : Instr
  devices : List Device
  payload : Bytes
  deriving DecidableEq, Repr

/-- The five arguments of the public operation `command(family, requestKind, dataType, deviceCsv, valueCsv)`
(R32, R103). `valueCsv = none` is the pseudo-form in which the caller gives none. -/
structure Command where
  family : Bytes
  requestKind : Bytes
  dataType : Bytes
  deviceCsv : Bytes
  valueCsv : Option Bytes
  deriving DecidableEq, Repr

end Sys2Proof
end

