-- ==== Sys2Proof/Machine/Bytes.lean ====
section
/-! DEFINITION. Byte-string primitives of the spec's notation: `lo8`, `le16`, ASCII text, digits, and
splitting on a comma (spec/00_scope.md R8, R9, R10). -/

namespace Sys2Proof.Machine

/-- `lo8(x) = x mod 256` (R8). -/
def lo8 (x : Nat) : Byte := BitVec.ofNat 8 x

/-- `le16(x) = [x mod 256, (x div 256) mod 256]` (R8, R62). -/
def le16 (x : Nat) : Bytes := [lo8 x, lo8 (x / 256)]

/-- The number of a little-endian byte string: byte k has the weight 256^k (R62, R64). -/
def leNat : Bytes → Nat
  | [] => 0
  | b :: bs => b.toNat + 256 * leNat bs

/-- The byte string of a text's ASCII codes (R9). PRESUMED: the codes are the standard ASCII table's, which
the spec takes from general knowledge (spec/93 K1, K2); assumption log 16. -/
def ascii (text : List Char) : Bytes := text.map fun c => lo8 c.toNat

/-- `','` = 0x2C (R9). -/
def comma : Byte := 0x2C

/-- `'%'` = 0x25 (R9). -/
def percent : Byte := 0x25

/-- A digit `'0'..'9'`, 0x30..0x39 (R9, R104). -/
def isDigit (b : Byte) : Bool := 0x30 ≤ b.toNat && b.toNat ≤ 0x39

/-- A capital letter `'A'..'Z'`, 0x41..0x5A (R9, R104). -/
def isCapital (b : Byte) : Bool := 0x41 ≤ b.toNat && b.toNat ≤ 0x5A

/-- `split(s, ',')`: the maximal segments that hold no comma, left to right, empty ones kept (R10, D9). -/
def split : Bytes → List Bytes
  | [] => [[]]
  | b :: bs =>
    if b = comma then [] :: split bs
    else
      match split bs with
      | [] => [[b]]
      | seg :: segs => (b :: seg) :: segs

end Sys2Proof.Machine
end

