-- ==== Sys2Proof/Machine/Descriptor.lean ====
section
/-! DEFINITION. The DataType descriptor table (ROM, spec/10_state.md R36), the opcodes (R98, R180), and the
model's numeric codes of KIND and DT (R33). -/

namespace Sys2Proof.Machine

/-- The opcode of a request kind: Read 0x0054, Write 0x0058 (R98, R180). -/
def opcode : Kind → Nat
  | .read => 0x0054
  | .write => 0x0058

/-- An entry of R36's column G: a group width in hex characters, or the OPEN parameter `G_UNKNOWN`. -/
inductive GroupWidth where
  | hexChars (g : Nat)
  | gUnknown
  deriving DecidableEq, Repr

/-- One row of the descriptor table of R36: the type code, the type letter, and the value codec's group
width. -/
structure TypeRow where
  typeCode : Nat
  typeLetter : Byte
  group : GroupWidth
  deriving DecidableEq, Repr

/-- The DataType descriptor table (R36), the one table that every part of the block reads. The G of Bit is
listed and never read (R131). -/
def typeRow : DataType → TypeRow
  | .bit => ⟨0x0000, 0x58, .hexChars 2⟩
  | .byte => ⟨0x0001, 0x42, .hexChars 2⟩
  | .word => ⟨0x0002, 0x57, .hexChars 4⟩
  | .dword => ⟨0x0003, 0x44, .hexChars 8⟩
  | .lword => ⟨0x0004, 0x4C, .hexChars 16⟩
  | .unknown => ⟨0x0014, 0x42, .gUnknown⟩

/-- TYPE_CODE[DT] (R36). -/
def typeCode (dt : DataType) : Nat := (typeRow dt).typeCode

/-- TYPE_LETTER[DT] (R36). -/
def typeLetter (dt : DataType) : Byte := (typeRow dt).typeLetter

/-- G of a data type (R36). -/
def typeGroup (dt : DataType) : GroupWidth := (typeRow dt).group

/-- KIND is 1 bit: READ = 0, WRITE = 1 (R33). -/
def kindCode : Kind → BitVec 1
  | .read => 0
  | .write => 1

/-- DT is 3 bits: Bit = 0 up to Unknown = 5; 6 and 7 are never written (R33). -/
def dataTypeCode : DataType → BitVec 3
  | .bit => 0
  | .byte => 1
  | .word => 2
  | .dword => 3
  | .lword => 4
  | .unknown => 5

/-- The request kind that a form fixes (R190 to R201). -/
def kindOf : Instr → Kind
  | .readBit | .readByte | .readWord | .readDword | .readLword | .readUnknown => .read
  | .writeBit | .writeByte | .writeWord | .writeDword | .writeLword | .writeUnknown => .write

/-- The data type that a form fixes (R190 to R201). -/
def dataTypeOf : Instr → DataType
  | .readBit | .writeBit => .bit
  | .readByte | .writeByte => .byte
  | .readWord | .writeWord => .word
  | .readDword | .writeDword => .dword
  | .readLword | .writeLword => .lword
  | .readUnknown | .writeUnknown => .unknown

/-- The form `<KIND>.<TYPE>` of a request kind and a data type (R98). -/
def formOf : Kind → DataType → Instr
  | .read, .bit => .readBit
  | .read, .byte => .readByte
  | .read, .word => .readWord
  | .read, .dword => .readDword
  | .read, .lword => .readLword
  | .read, .unknown => .readUnknown
  | .write, .bit => .writeBit
  | .write, .byte => .writeByte
  | .write, .word => .writeWord
  | .write, .dword => .writeDword
  | .write, .lword => .writeLword
  | .write, .unknown => .writeUnknown

end Sys2Proof.Machine
end

