-- ==== Sys2Proof/WellFormed.lean ====
section
/-! DEFINITION. Which instruction blocks are well formed: the token grammar of spec/30_encoding.md R104, and
the bounds within which no length byte wraps (R94, R97; spec/70_reset_and_hazards.md R353 items 3 and 4). -/

namespace Sys2Proof

/-- A suffix is one or more digits, and at most 252 of them, so that the item length byte `3 + |suffix|` does
not wrap (R94, R104, R353 item 4). -/
def Device.wf (d : Device) : Bool :=
  Machine.isCapital d.letter && !d.suffix.isEmpty && d.suffix.all Machine.isDigit && d.suffix.length ≤ 252

/-- A block is well formed when its count byte does not wrap (at most 255 devices, R353 item 3), every device
is, and a read carries no value payload (R93). -/
def Block.wf (b : Block) : Bool :=
  b.devices.length ≤ 255 && b.devices.all Device.wf && (Machine.kindOf b.form == .write || b.payload.isEmpty)

end Sys2Proof
end

