-- ==== Sys2Proof/Decode.lean ====
section
/-! DEFINITION. The decoders and the encoder. On the input side a command's strings select a form
(spec/43_instruction_builder.md R180, R181; spec/30_encoding.md R100). On the output side an instruction
block's bytes name a form, its devices and its payload (R93, R94, R98). Both decoders are total and reject by
name. -/

namespace Sys2Proof

open Machine

/-- Why an instruction block is rejected. -/
inductive DecodeError where
  /-- fewer than the 8 bytes of the fixed part (R93) -/
  | tooShort
  /-- an opcode other than 0x0054 and 0x0058 (R98, R99) -/
  | badOpcode (op : Nat)
  /-- a type code outside R36's six (R99) -/
  | badTypeCode (code : Nat)
  /-- bytes 4, 5 or 7 are not zero (R98, R99) -/
  | reservedNotZero
  /-- the bytes end inside an item (R94) -/
  | itemTruncated
  /-- the pad byte of an item is not zero (R94, R99) -/
  | itemPadNotZero
  /-- an item's symbol does not begin with '%' (R94) -/
  | noSymbolStart
  /-- an item's type letter is not that of the block's data type (R94, R183) -/
  | wrongTypeLetter
  /-- an item's length byte, class letter or suffix is not of R94's form with R104's token grammar -/
  | malformedItem
  /-- bytes follow the items of a read (R93) -/
  | trailingBytes
  deriving DecidableEq, Repr

/-- The request kind of an opcode (R98). -/
def kindOfOpcode (op : Nat) : Option Kind :=
  if op = 0x0054 then some .read else if op = 0x0058 then some .write else none

/-- The data type of a type code (R36, R98). -/
def dataTypeOfCode (code : Nat) : Option DataType :=
  if code = 0x0000 then some .bit
  else if code = 0x0001 then some .byte
  else if code = 0x0002 then some .word
  else if code = 0x0003 then some .dword
  else if code = 0x0004 then some .lword
  else if code = 0x0014 then some .unknown
  else none

/-- The form that the instruction head word's four bytes name: opcode in bytes 0..1, type code in bytes 2..3,
both little-endian (R93, R98). -/
def decodeHead (b0 b1 b2 b3 : Byte) : Except DecodeError Instr :=
  match kindOfOpcode (leNat [b0, b1]) with
  | none => .error (.badOpcode (leNat [b0, b1]))
  | some k =>
    match dataTypeOfCode (leNat [b2, b3]) with
    | none => .error (.badTypeCode (leNat [b2, b3]))
    | some dt => .ok (formOf k dt)

/-- One device item and the bytes after it (format ITEM, R94). The length byte counts the symbol: 3 bytes and
the suffix. -/
def decodeItem (dt : DataType) : Bytes → Except DecodeError (Device × Bytes)
  | len :: pad :: pct :: letter :: ty :: rest =>
    if pad ≠ 0 then .error .itemPadNotZero
    else if pct ≠ percent then .error .noSymbolStart
    else if ty ≠ typeLetter dt then .error .wrongTypeLetter
    else if rest.length < len.toNat - 3 then .error .itemTruncated
    else
      let d : Device := ⟨letter, rest.take (len.toNat - 3)⟩
      if d.wf then .ok (d, rest.drop (len.toNat - 3)) else .error .malformedItem
  | _ => .error .itemTruncated

/-- The given number of device items and the bytes after them (R93). -/
def decodeItems (dt : DataType) : Nat → Bytes → Except DecodeError (List Device × Bytes)
  | 0, bs => .ok ([], bs)
  | n + 1, bs =>
    match decodeItem dt bs with
    | .error e => .error e
    | .ok (d, rest) =>
      match decodeItems dt n rest with
      | .error e => .error e
      | .ok (ds, rest') => .ok (d :: ds, rest')

/-- The decoder of instruction blocks, total on any bytes (R93, R98). It also checks bytes 4, 5 and 7, as R98
says a decoder may. The count byte is taken as it stands, so a block whose count or item length has wrapped
(R97) is not read back; assumption log 14. -/
def decode : Bytes → Except DecodeError Block
  | b0 :: b1 :: b2 :: b3 :: b4 :: b5 :: count :: b7 :: rest =>
    match decodeHead b0 b1 b2 b3 with
    | .error e => .error e
    | .ok form =>
      if b4 ≠ 0 ∨ b5 ≠ 0 ∨ b7 ≠ 0 then .error .reservedNotZero
      else
        match decodeItems (dataTypeOf form) count.toNat rest with
        | .error e => .error e
        | .ok (ds, payload) =>
          if kindOf form = .read ∧ payload ≠ [] then .error .trailingBytes
          else .ok ⟨form, ds, payload⟩
  | _ => .error .tooShort

/-- The instruction head word of a form as R98's map writes it, `IHW[15:0]` the opcode and `IHW[31:16]` the
data-type code. -/
def headWord : Instr → BitVec 32
  | .readBit => 0x00000054
  | .readByte => 0x00010054
  | .readWord => 0x00020054
  | .readDword => 0x00030054
  | .readLword => 0x00040054
  | .readUnknown => 0x00140054
  | .writeBit => 0x00000058
  | .writeByte => 0x00010058
  | .writeWord => 0x00020058
  | .writeDword => 0x00030058
  | .writeLword => 0x00040058
  | .writeUnknown => 0x00140058

/-- The four bytes of a head word, least significant first (R62, R93). -/
def encodeHead (i : Instr) : Bytes :=
  (List.range 4).map fun k => lo8 ((headWord i).toNat / 256 ^ k)

/-- A device item (R94): the length byte `3 + |suffix|`, a pad, `'%'`, the class letter, the type letter, the
suffix. -/
def encodeItem (dt : DataType) (d : Device) : Bytes :=
  [lo8 (3 + d.suffix.length), 0, percent, d.letter, typeLetter dt] ++ d.suffix

/-- The encoder of instruction blocks (format INS, R93). -/
def encode (b : Block) : Bytes :=
  encodeHead b.form ++ [0, 0, lo8 b.devices.length, 0]
    ++ b.devices.flatMap (encodeItem (dataTypeOf b.form)) ++ b.payload

/-- Opcode mux on the request-kind string: exactly "read" or "write" (R180, D2). -/
def kindOfString (str : Bytes) : Option Kind :=
  if str = ascii ['r', 'e', 'a', 'd'] then some .read
  else if str = ascii ['w', 'r', 'i', 't', 'e'] then some .write
  else none

/-- Data-type mux on the data-type string: the five names exactly, every other string Unknown (R181, D3). -/
def dataTypeOfString (str : Bytes) : DataType :=
  if str = ascii ['b', 'i', 't'] then .bit
  else if str = ascii ['b', 'y', 't', 'e'] then .byte
  else if str = ascii ['w', 'o', 'r', 'd'] then .word
  else if str = ascii ['d', 'w', 'o', 'r', 'd'] then .dword
  else if str = ascii ['l', 'w', 'o', 'r', 'd'] then .lword
  else .unknown

/-- The form that a command's request-kind and data-type strings select; `none` is the illegal request kind,
which raises BAD_REQUEST_KIND (R100, R180, R181). -/
def decodeDescriptor (kindStr dtypeStr : Bytes) : Option Instr :=
  (kindOfString kindStr).map fun k => formOf k (dataTypeOfString dtypeStr)

/-- The request-kind string of a form (R103, R180). -/
def kindString (i : Instr) : Bytes :=
  match kindOf i with
  | .read => ascii ['r', 'e', 'a', 'd']
  | .write => ascii ['w', 'r', 'i', 't', 'e']

/-- A data-type string that selects a form's data type. For Unknown any string outside the five names does
(R181, R195); the model writes "unknown". DESIGN CHOICE, assumption log 3. -/
def dataTypeString (i : Instr) : Bytes :=
  match dataTypeOf i with
  | .bit => ascii ['b', 'i', 't']
  | .byte => ascii ['b', 'y', 't', 'e']
  | .word => ascii ['w', 'o', 'r', 'd']
  | .dword => ascii ['d', 'w', 'o', 'r', 'd']
  | .lword => ascii ['l', 'w', 'o', 'r', 'd']
  | .unknown => ascii ['u', 'n', 'k', 'n', 'o', 'w', 'n']

/-- The bytes of a table word: bit 0 of `w` is the least significant bit of the first byte, the bits from
`nbits` on are zero, and there are at least the 8 bytes of the shortest instruction block. -/
def tableWordBytes (nbits w : Nat) : Bytes :=
  (List.range (max 8 ((nbits + 7) / 8))).map fun k => lo8 (w % 2 ^ nbits / 256 ^ k)

/-- The instruction that the block decoder reads from a word of spec/opcode_table.json. -/
def decodeTableWord (nbits w : Nat) : Option Instr :=
  match decode (tableWordBytes nbits w) with
  | .ok b => some b.form
  | .error _ => none

end Sys2Proof
end

