-- ==== Sys2Proof/Machine/State.lean ====
section
/-! DEFINITION. The state of the block as plain data (spec/10_state.md R30 to R42), the transport state that
the spec names outside it (R40), and the host interface (spec/46_command.md R291, R300, R304). -/

namespace Sys2Proof.Machine

/-- PHASE, the sequencer register (R31). The value 7 is never used. -/
inductive Phase where
  | idle
  | build
  | send
  | recv
  | parse
  | done
  | fault
  deriving DecidableEq, Repr

/-- ERR_KIND (R37, R320). -/
inductive ErrKind where
  | none
  | connectionError
  | ioError
  | protocolError
  | valueError
  deriving DecidableEq, Repr

/-- The causes a raise may name, one per row of R321. -/
inductive Cause where
  | connSend
  | connRecv
  | ioSend
  | ioRecv
  | protoIndex
  | badRequestKind
  | emptyDeviceToken
  | malformedDeviceToken
  | badValueToken
  | unknownTypeValue
  deriving DecidableEq, Repr

/-- ERR_INFO (R37): nothing, the 0-based position of the failing token, or the (I, J, IDX) of a
ProtocolError. -/
inductive ErrInfo where
  | nothing
  | position (k : Nat)
  | index (i j : Nat) (idx : Int)
  deriving DecidableEq, Repr

/-- What a `raise` is given: the cause, which fixes kind and detail code, and the datum (R13). -/
structure Raise where
  cause : Cause
  info : ErrInfo
  deriving DecidableEq, Repr

/-- A draw of `send` (R14, R296). -/
inductive SendAnswer where
  | ok
  | connErr
  | ioErr
  deriving DecidableEq, Repr

/-- A draw of `receive` (R14, R297). -/
inductive RecvAnswer where
  | data (r : Bytes)
  | connErr
  | ioErr
  deriving DecidableEq, Repr

/-- An act of the caller that the block or the transport has still to admit (R291, R304, R352). -/
inductive CallerAct where
  /-- start a command (R291) -/
  | start (c : Command)
  /-- initialise the transport library, idempotent (R352 step 1) -/
  | initTransport
  /-- open the connection (R352 step 2) -/
  | openConnection
  /-- close the connection (R304) -/
  | closeConnection
  /-- configure the transport's timeout (R40) -/
  | setTimeout (t : Nat)
  deriving DecidableEq, Repr

/-- An interaction of the block with the transport, with its answer (R72, R304). -/
inductive TransportEvent where
  | send (frame : Bytes) (answer : SendAnswer)
  | receive (maxLen : Nat) (answer : RecvAnswer)
  /-- a reset came while `send` had no answer: these bytes of FRAME, possibly all or none, had been taken (R351) -/
  | sendAbandoned (handed : Bytes)
  deriving DecidableEq, Repr

/-- A command's outcome as the caller takes it: `Ok(RESULT)` or `Err(kind, detail, info)` (R300). -/
inductive CommandOutcome where
  | ok (values : List U64)
  | err (kind : ErrKind) (detail : Byte) (info : ErrInfo)
  deriving DecidableEq, Repr

/-- The transport state that the spec names outside the block (R40). No rule of the block reads or writes it.
Assumption log 12. -/
structure Transport where
  initDone : Bool
  connectionOpen : Bool
  timeout : Nat
  deriving DecidableEq, Repr

/-- The host interface as plain data: what the environment has still to hand over, and what it has been
handed. These are the model's own fields. Assumption log 4, 5, 6, 7 and 13. -/
structure Env where
  /-- whether the environment asserts reset (R351) -/
  resetLine : Bool
  /-- the caller's acts not yet admitted, first first (R291) -/
  caller : List CallerAct
  /-- the answers that `send` will be given (R14) -/
  sendAnswers : List SendAnswer
  /-- the answers that `receive` will be given (R14, R41) -/
  recvAnswers : List RecvAnswer
  /-- the transport events so far, oldest first (R72) -/
  trace : List TransportEvent
  /-- how many sends a reset has abandoned, the argument of the free value `Config.handedOver` (R351) -/
  abandonedSends : Nat
  /-- the outcomes that the caller has taken, oldest first (R300) -/
  outputs : List CommandOutcome
  deriving DecidableEq, Repr

/-- The state of the machine. A register of R42 that holds "no value" is `none`: that is the spec's own reset
state of it, and reading it faults, as R42 and R43 state (spec/10_state.md:116, :133). The form of it as an Option
is assumption log 2. -/
structure State where
  /-- PHASE (R31) -/
  phase : Phase
  /-- FAMILY (R32) -/
  family : Option Bytes
  /-- KIND_STR (R32) -/
  kindStr : Option Bytes
  /-- DTYPE_STR (R32) -/
  dtypeStr : Option Bytes
  /-- ADDR_CSV (R32) -/
  addrCsv : Option Bytes
  /-- VAL_CSV (R32) -/
  valCsv : Option Bytes
  /-- KIND (R33) -/
  kind : Option Kind
  /-- DT (R33) -/
  dt : Option DataType
  /-- LSIS (R33) -/
  lsis : Option Bool
  /-- TOKENS (R34) -/
  tokens : Option (List Bytes)
  /-- IBUF (R34) -/
  ibuf : Option Bytes
  /-- VBUF (R34) -/
  vbuf : Option Bytes
  /-- HBUF (R34) -/
  hbuf : Option Bytes
  /-- FRAME (R34) -/
  frame : Option Bytes
  /-- RBUF (R35) -/
  rbuf : Option Bytes
  /-- NUM (R35) -/
  num : Option Byte
  /-- COUNT (R35) -/
  count : Option Nat
  /-- I (R35) -/
  loopI : Option Nat
  /-- J (R35) -/
  loopJ : Option Nat
  /-- IDX (R35), a signed integer, exact (D28) -/
  idx : Option Int
  /-- ACC (R35) -/
  acc : Option U64
  /-- RESULT (R35, R38) -/
  result : List U64
  /-- ERR_KIND (R37) -/
  errKind : ErrKind
  /-- ERR_DETAIL (R37) -/
  errDetail : Byte
  /-- ERR_INFO (R37) -/
  errInfo : ErrInfo
  /-- the transport state outside the block (R40) -/
  transport : Transport
  /-- the host interface -/
  env : Env
  deriving DecidableEq, Repr

/-- The registers that a rule reads and that may hold no value (R42). -/
inductive Register where
  | family
  | kindStr
  | dtypeStr
  | addrCsv
  | valCsv
  | kind
  | frame
  | rbuf
  deriving DecidableEq, Repr

/-- Why the machine stops. -/
inductive Fault where
  /-- A rule read a register that holds no value: R42 says that "a model must fault on a read of it, and never use
  zero" (spec/10_state.md:116), and R43 that no command reaches it and that a model that does "must fault"
  (spec/10_state.md:133). Raised by `readReg` alone. Safe: the block has no such read. -/
  | noValue (r : Register)
  deriving DecidableEq, Repr

/-- Why an instruction has no meaning. -/
inductive Refusal where
  /-- The instruction of this mnemonic has no meaning yet. Raised by exec's arms alone; none does. Safe. -/
  | notModelled (mnemonic : String)
  deriving DecidableEq, Repr

/-- The machine right after reset (R42, R350): PHASE is IDLE, no working register holds a value, RESULT is
empty, the error status is NONE. The transport state and the host interface are the model's values
(DESIGN CHOICE, assumption log 4, 5, 6, 7, 12 and 13). -/
def State.reset : State where
  phase := .idle
  family := none
  kindStr := none
  dtypeStr := none
  addrCsv := none
  valCsv := none
  kind := none
  dt := none
  lsis := none
  tokens := none
  ibuf := none
  vbuf := none
  hbuf := none
  frame := none
  rbuf := none
  num := none
  count := none
  loopI := none
  loopJ := none
  idx := none
  acc := none
  result := []
  errKind := .none
  errDetail := 0
  errInfo := .nothing
  transport := ⟨false, false, 0⟩
  env := ⟨false, [], [], [], [], 0, []⟩

end Sys2Proof.Machine
end

