-- ==== Sys2Proof/Machine/Flags.lean ====
section
/-! DEFINITION. The numeric codes of the status registers: PHASE (spec/10_state.md R31) and the error status,
the block's only flags (R37; spec/60_exceptions.md R321). -/

namespace Sys2Proof.Machine

/-- PHASE is 3 bits wide (R31). -/
def phaseCode : Phase → BitVec 3
  | .idle => 0
  | .build => 1
  | .send => 2
  | .recv => 3
  | .parse => 4
  | .done => 5
  | .fault => 6

/-- ERR_KIND is 3 bits wide (R37). -/
def errKindCode : ErrKind → BitVec 3
  | .none => 0
  | .connectionError => 1
  | .ioError => 2
  | .protocolError => 3
  | .valueError => 4

/-- The error kind of a cause (R321). -/
def causeKind : Cause → ErrKind
  | .connSend | .connRecv => .connectionError
  | .ioSend | .ioRecv => .ioError
  | .protoIndex => .protocolError
  | .badRequestKind | .emptyDeviceToken | .malformedDeviceToken | .badValueToken | .unknownTypeValue => .valueError

/-- The ERR_DETAIL code of a cause (R321). -/
def causeDetail : Cause → Byte
  | .connSend => 0x01
  | .connRecv => 0x02
  | .ioSend => 0x11
  | .ioRecv => 0x12
  | .protoIndex => 0x21
  | .badRequestKind => 0x31
  | .emptyDeviceToken => 0x32
  | .malformedDeviceToken => 0x33
  | .badValueToken => 0x34
  | .unknownTypeValue => 0x35

end Sys2Proof.Machine
end

