-- ==== Sys2Proof/Machine/Ops.lean ====
section
/-! DEFINITION. The shared operations over registers and buffers (spec/00_scope.md R11, R12), taking an error
(`raise`, spec/60_exceptions.md R324) with the return from one (END, spec/46_command.md R300, R326), and reset
(spec/70_reset_and_hazards.md R350, R351). -/

namespace Sys2Proof.Machine

/-- What a step or a meaning answers. -/
abbrev Result := Host.Outcome State Fault Refusal

/-- Read a register and go on with its value. On a register that holds no value the spec has the model stop: "a
model must fault on a read of it, and never use zero" (R42, spec/10_state.md:116; R43, spec/10_state.md:133). -/
def readReg {α : Type} (reg : Option α) (name : Register) (go : α → Result) : Result :=
  match reg with
  | some v => go v
  | none => .fault (.noValue name)

/-- `MemRead(addr, 1)` on a buffer: the byte at an index that the buffer has (R12, R67). -/
def memRead (buf : Bytes) (addr : Nat) (inside : addr < buf.length) : Byte := buf[addr]

/-- `MemWrite` on a request buffer, which is only ever an append at `addr = |BUF|` (R11, R12, R60). -/
def memAppend (buf v : Bytes) : Bytes := buf ++ v

/-- A buffer as (address, byte) cells, addresses rising from 0 (R60). Assumption log 17. -/
def bufferCells (buf : Bytes) : List Host.Cell := buf.zipIdx.map fun (b, a) => (a, b)

/-- The canonical form of a list of cells: addresses strictly rising, so that no address is listed twice. An
address that a buffer does not list does not exist in it (R60, R265). Assumption log 17. -/
def Memory.wf (cells : List Host.Cell) : Bool := decide (cells.Pairwise fun a b => a.1 < b.1)

/-- `raise <Kind>(detail, info)`: the error status is written, RESULT is emptied and PHASE becomes FAULT; no
other register changes (R13, R324). -/
def raise (e : Raise) (s : State) : State :=
  { s with
    errKind := causeKind e.cause
    errDetail := causeDetail e.cause
    errInfo := e.info
    result := []
    phase := .fault }

/-- Every register of the block at its reset value; the transport state and the host interface are not the
block's and stay (R42, R350, R351). -/
def blockReset (s : State) : State :=
  { State.reset with transport := s.transport, env := s.env }

/-- What the caller takes at the end of a command: RESULT at DONE, the error status at FAULT (R300). -/
def commandOutcome (s : State) : CommandOutcome :=
  if s.phase = .fault then .err s.errKind s.errDetail s.errInfo else .ok s.result

/-- END, the return from an error and from a command alike: the caller takes the output, PHASE becomes IDLE
and every working register returns to its reset state (R300, R326). -/
def endCommand (s : State) : State :=
  { blockReset s with env := { s.env with outputs := s.env.outputs ++ [commandOutcome s] } }

/-- The host interface after what a reset abandons. In SEND the transport may have taken FRAME in whole, in part
or not at all: the number of bytes is a free value, and the event holds those bytes. In RECV and PARSE the frame
was sent and its event stands; a response that remains in the stream stays among the answers (R41, R351, D23).
Assumption log 6. -/
def abandonCommand (s : State) : Env :=
  match s.phase, s.frame with
  | .send, some frame =>
    { s.env with
      trace := s.env.trace ++ [.sendAbandoned (frame.take (Config.handedOver s.env.abandonedSends))]
      abandonedSends := s.env.abandonedSends + 1 }
  | _, _ => s.env

/-- A reset that the environment asserts, in any phase: the command is abandoned and the line is taken back;
what was sent stays sent (R351, D23). Assumption log 7. -/
def takeReset (s : State) : State :=
  { blockReset s with env := { abandonCommand s with resetLine := false } }

end Sys2Proof.Machine
end

