-- ==== Sys2Proof/Machine/FrameBuilder.lean ====
section
/-! DEFINITION. FrameBuilder: the family decode, the header, the header patcher and the frame
(spec/44_frame_builder.md R230 to R235; spec/30_encoding.md R90 to R92). It cannot raise. -/

namespace Sys2Proof.Machine

/-- LSIS: 1 exactly for the families "XGT" and "XGB" (R230, D4). -/
def familyLsis (family : Bytes) : Bool :=
  family = ascii ['X', 'G', 'T'] || family = ascii ['X', 'G', 'B']

/-- The 10 bytes of the company id (R90, R231). -/
def companyId (lsis : Bool) : Bytes :=
  if lsis then memAppend (ascii ['L', 'S', 'I', 'S', '-', 'X', 'G', 'T']) [0x00, 0x00]
  else ascii ['L', 'G', 'I', 'S', '-', 'G', 'L', 'O', 'F', 'A']

/-- BUILD_HEADER: the company id, then PLC header, CPU header, source frame header and invoke id (R231; C2). -/
def buildHeader (lsis : Bool) : Bytes :=
  memAppend (memAppend (memAppend (memAppend (companyId lsis) [0x00, 0x00]) [0x00]) [0x33]) [0x00, 0x00]

/-- PATCH_HEADER: append the low byte of the instruction length, a pad and two reserved bytes (R233, R92). -/
def patchHeader (header : Bytes) (instructionLength : Nat) : Bytes :=
  memAppend header [lo8 instructionLength, 0x00, 0x00, 0x00]

/-- ASSEMBLE_FRAME: `HBUF ++ IBUF` (R234). -/
def assembleFrame (hbuf ibuf : Bytes) : Bytes := memAppend hbuf ibuf

/-- The whole request frame for a family bit and an instruction block (R90). -/
def requestFrame (lsis : Bool) (ibuf : Bytes) : Bytes :=
  assembleFrame (patchHeader (buildHeader lsis) ibuf.length) ibuf

/-- The frame builder's part of BUILD: LSIS, HBUF and FRAME are written and PHASE becomes SEND (R235, R292). -/
def finishBuild (ibuf : Bytes) (s : State) : Result :=
  readReg s.family .family fun family =>
    .next { s with
      lsis := some (familyLsis family)
      hbuf := some (patchHeader (buildHeader (familyLsis family)) ibuf.length)
      frame := some (requestFrame (familyLsis family) ibuf)
      phase := .send }

end Sys2Proof.Machine
end

