-- ==== Sys2Proof/Machine/Operands.lean ====
section
/-! DEFINITION. The operands of the forms: device tokens (spec/42_address_list.md R160 to R162) and value
tokens (spec/41_value_codec.md R133). -/

namespace Sys2Proof.Machine

/-- TOKENIZE: split the device list; any string is accepted (R160). -/
def tokenize (csv : Bytes) : List Bytes := split csv

/-- Whether a token is a `devtoken` of R104: one ASCII capital letter, then one or more digits (R162, D5). -/
def isDeviceToken : Bytes → Bool
  | [] => false
  | c :: suffix => isCapital c && !suffix.isEmpty && suffix.all isDigit

/-- CHECK_TOKENS from token index `k` on: the first token that fails, with its index (R162). -/
def checkTokensFrom (k : Nat) : List Bytes → Option Raise
  | [] => none
  | t :: ts =>
    if t = [] then some ⟨.emptyDeviceToken, .position k⟩
    else if isDeviceToken t then checkTokensFrom (k + 1) ts
    else some ⟨.malformedDeviceToken, .position k⟩

/-- CHECK_TOKENS (R162). -/
def checkTokens (tokens : List Bytes) : Option Raise := checkTokensFrom 0 tokens

/-- The number that decimal digits spell: the sum of `(tok[k] - 0x30) * 10^(|tok|-1-k)` (R133). -/
def decimalValue : Bytes → Nat
  | [] => 0
  | d :: ds => (d.toNat - 0x30) * 10 ^ ds.length + decimalValue ds

/-- `parse_u64(tok, pos)`: one or more digits and nothing else, of a value at most 2^64 − 1 (R133, D6). -/
def parseU64 (tok : Bytes) (pos : Nat) : Except Raise U64 :=
  if tok = [] ∨ tok.all isDigit = false then .error ⟨.badValueToken, .position pos⟩
  else if decimalValue tok > Config.valueMax then .error ⟨.badValueToken, .position pos⟩
  else .ok (BitVec.ofNat 64 (decimalValue tok))

end Sys2Proof.Machine
end

