-- ==== Sys2Proof/Machine/ValueCodec.lean ====
section
/-! DEFINITION. ValueCodec: one non-empty value token to one value block (spec/41_value_codec.md). -/

namespace Sys2Proof.Machine

/-- The ASCII code of `'0'`, the pad character of hex strings. -/
def zeroChar : Byte := 0x30

/-- The uppercase hex digit of a number below 16 (R137). -/
def hexDigit (n : Nat) : Byte := if n < 10 then lo8 (0x30 + n) else lo8 (0x41 + (n - 10))

/-- The value of a hex digit; the case of a letter does not matter (R137). -/
def hexValue (c : Byte) : Nat :=
  if isDigit c then c.toNat - 0x30
  else if isCapital c then c.toNat - 0x41 + 10
  else c.toNat - 0x61 + 10

/-- The shortest uppercase hex spelling of a number of at most `digits` hex digits, "0" for 0 (R137, D7). -/
def hexSpell : Nat → Nat → Bytes
  | 0, _ => []
  | digits + 1, v => if v < 16 then [hexDigit v] else hexSpell digits (v / 16) ++ [hexDigit (v % 16)]

/-- `hexr(V)`: the shortest spelling, with one `'0'` before it when its length is odd (R137). A u64 has at most
16 hex digits; assumption log 18. -/
def hexr (v : U64) : Bytes :=
  let h := hexSpell 16 v.toNat
  if h.length % 2 = 1 then zeroChar :: h else h

/-- `hex2bytes(h)`: two hex characters a byte, left to right, for an even length (R63, R137). -/
def hex2bytes : Bytes → Bytes
  | a :: b :: rest => lo8 (16 * hexValue a + hexValue b) :: hex2bytes rest
  | _ => []

/-- Step (2) of R134: left-pad with `'0'` until the length is a multiple of G. -/
def padLeft (g : Nat) (hex : Bytes) : Bytes :=
  List.replicate ((g - hex.length % g) % g) zeroChar ++ hex

/-- The character at an index of the padded hex string. Every index that R134's loop reads is inside. -/
def charAt (p : Bytes) (i : Int) : Byte := p.getD i.toNat zeroChar

/-- Step (4) of R134: from index `i` down by 4 while `i > 0`, the characters at `i+1, i+2, i-1, i` in that
order. `fuel` bounds the passes by the length of the string. -/
def reorderScan (p : Bytes) : Nat → Int → Bytes
  | 0, _ => []
  | fuel + 1, i =>
    if i > 0 then
      [charAt p (i + 1), charAt p (i + 2), charAt p (i - 1), charAt p i] ++ reorderScan p fuel (i - 4)
    else []

/-- `reorder(G, hex)`, the nibble-reorder transform exactly as R134 states it: the literal "2000", then the
scan from index `|p| - 3`. -/
def reorder (g : Nat) (hex : Bytes) : Bytes :=
  let p := padLeft g hex
  ascii ['2', '0', '0', '0'] ++ reorderScan p p.length ((p.length : Int) - 3)

/-- The value bytes of a number for a group width: `hex2bytes(reorder(G, hexr(V)))` (R134, R137). -/
def hexBlock (g : Nat) (v : U64) : Bytes := hex2bytes (reorder g (hexr v))

/-- Parse a token and render it with a group width (R139 to R142). -/
def encodeHex (g : Nat) (tok : Bytes) (pos : Nat) : Except Raise Bytes :=
  match parseU64 tok pos with
  | .error e => .error e
  | .ok v => .ok (hexBlock g v)

/-- ENCODE.BIT: `[0x01, 0x00, V mod 256]` (R95, R131). -/
def encodeBit (tok : Bytes) (pos : Nat) : Except Raise Bytes :=
  match parseU64 tok pos with
  | .error e => .error e
  | .ok v => .ok [0x01, 0x00, lo8 v.toNat]

/-- ENCODE.UNKNOWN under a value of `G_UNKNOWN` (R138). FAULT raises before the token is parsed (R325). -/
def encodeUnknown (g : GUnknown) (tok : Bytes) (pos : Nat) : Except Raise Bytes :=
  match g with
  | .fault => .error ⟨.unknownTypeValue, .position pos⟩
  | .width2 => encodeHex 2 tok pos
  | .width4 => encodeHex 4 tok pos
  | .width8 => encodeHex 8 tok pos
  | .width16 => encodeHex 16 tok pos

/-- The hex encoders: parse a token and render it with the group width that the descriptor table gives the data
type, the OPEN parameter for Unknown (R36, R134; assumption log 8). -/
def encodeGroup (dt : DataType) (tok : Bytes) (pos : Nat) : Except Raise Bytes :=
  match typeGroup dt with
  | .hexChars g => encodeHex g tok pos
  | .gUnknown => encodeUnknown Config.gUnknown tok pos

/-- ENCODE.BYTE: the table's G is 2 (R139). Every value in 0..255 gives `20 00`: the quirk is the spec's (D14). -/
def encodeByte (tok : Bytes) (pos : Nat) : Except Raise Bytes := encodeGroup .byte tok pos

/-- ENCODE.WORD: the table's G is 4 (R140). -/
def encodeWord (tok : Bytes) (pos : Nat) : Except Raise Bytes := encodeGroup .word tok pos

/-- ENCODE.DWORD: the table's G is 8 (R141). -/
def encodeDword (tok : Bytes) (pos : Nat) : Except Raise Bytes := encodeGroup .dword tok pos

/-- ENCODE.LWORD: the table's G is 16 (R142). -/
def encodeLword (tok : Bytes) (pos : Nat) : Except Raise Bytes := encodeGroup .lword tok pos

/-- `encode(DT, tok, pos)` (R130). Unknown takes the OPEN parameter from the table;
assumption log 8. -/
def encodeValue (dt : DataType) (tok : Bytes) (pos : Nat) : Except Raise Bytes :=
  match dt with
  | .bit => encodeBit tok pos
  | .byte => encodeByte tok pos
  | .word => encodeWord tok pos
  | .dword => encodeDword tok pos
  | .lword => encodeLword tok pos
  | .unknown => encodeGroup .unknown tok pos

/-- `values()` from segment index `pos` on: VBUF's bytes so far, and the raise that ended it if there was
one. Blank tokens are skipped (R186). -/
def encodeValuesFrom (dt : DataType) (pos : Nat) : List Bytes → Bytes × Option Raise
  | [] => ([], none)
  | seg :: segs =>
    if seg = [] then encodeValuesFrom dt (pos + 1) segs
    else
      match encodeValue dt seg pos with
      | .error e => ([], some e)
      | .ok block =>
        let later := encodeValuesFrom dt (pos + 1) segs
        (memAppend block later.1, later.2)

/-- `values()` on a value list (R186). -/
def encodeValues (dt : DataType) (valCsv : Bytes) : Bytes × Option Raise :=
  encodeValuesFrom dt 0 (split valCsv)

end Sys2Proof.Machine
end

