-- ==== Sys2Proof/Machine/InstructionBuilder.lean ====
section
/-! DEFINITION. InstructionBuilder: the symbol encoder, the instruction block, and phase BUILD for a form
(spec/43_instruction_builder.md R182 to R188; spec/44_frame_builder.md R235). -/

namespace Sys2Proof.Machine

/-- `symbol(t) = ['%', t[0], TYPE_LETTER[DT]] ++ t[1..|t|)` (R183). An empty token has no class letter; it is
never encoded, because CHECK_TOKENS has refused it (R162). -/
def symbol (dt : DataType) : Bytes → Bytes
  | [] => [percent, typeLetter dt]
  | c :: suffix => percent :: c :: typeLetter dt :: suffix

/-- `item(t) = [|symbol(t)| mod 256, 0x00] ++ symbol(t)` (R183). -/
def item (dt : DataType) (t : Bytes) : Bytes :=
  memAppend [lo8 (symbol dt t).length, 0x00] (symbol dt t)

/-- `count_field() = [|TOKENS| mod 256, 0x00]` (R184). -/
def countField (tokens : List Bytes) : Bytes := [lo8 tokens.length, 0x00]

/-- The instruction block up to its value payload: opcode, type code, reserved, count, items (R182, R185). -/
def instructionBlock (k : Kind) (dt : DataType) (tokens : List Bytes) : Bytes :=
  memAppend (le16 (opcode k) ++ le16 (typeCode dt) ++ [0x00, 0x00] ++ countField tokens)
    (tokens.flatMap (item dt))

/-- The part of `build_instruction` that both kinds share, on a device list: KIND, DT and TOKENS are written,
the tokens are checked, IBUF takes the block up to its items, and `go` has the rest. A raise keeps what was
written before it (R182, R324, assumption log 11). -/
def buildItems (k : Kind) (dt : DataType) (s : State) (go : Bytes → State → Result) : Result :=
  readReg s.addrCsv .addrCsv fun csv =>
    match checkTokens (tokenize csv) with
    | some e => .next (raise e { s with kind := some k, dt := some dt, tokens := some (tokenize csv) })
    | none =>
      go (instructionBlock k dt (tokenize csv))
        { s with
          kind := some k
          dt := some dt
          tokens := some (tokenize csv)
          ibuf := some (instructionBlock k dt (tokenize csv)) }

/-- Phase BUILD of a read form: VAL_CSV is not read (R186, R190 to R195, R235). -/
def buildRead (dt : DataType) (s : State) : Result :=
  buildItems .read dt s finishBuild

/-- Phase BUILD of a write form: the value payload is encoded into VBUF and appended to IBUF (R186, R196 to
R201, R235). A value token that raises leaves the blocks before it in VBUF and IBUF without a payload. -/
def buildWrite (dt : DataType) (s : State) : Result :=
  buildItems .write dt s fun block s' =>
    readReg s'.valCsv .valCsv fun valCsv =>
      match (encodeValues dt valCsv).2 with
      | some e => .next (raise e { s' with vbuf := some (encodeValues dt valCsv).1 })
      | none =>
        finishBuild (memAppend block (encodeValues dt valCsv).1)
          { s' with
            vbuf := some (encodeValues dt valCsv).1
            ibuf := some (memAppend block (encodeValues dt valCsv).1) }

end Sys2Proof.Machine
end

