-- ==== Sys2Proof/Machine/Read.lean ====
section
/-! DEFINITION. The meanings of the six READ forms (spec/43_instruction_builder.md R190 to R195): phase
BUILD with the kind and the data type that the form fixes. -/

namespace Sys2Proof.Machine

/-- READ.BIT (R190). -/
def execReadBit (s : State) : Result := buildRead .bit s

/-- READ.BYTE (R191). -/
def execReadByte (s : State) : Result := buildRead .byte s

/-- READ.WORD (R192). -/
def execReadWord (s : State) : Result := buildRead .word s

/-- READ.DWORD (R193). -/
def execReadDword (s : State) : Result := buildRead .dword s

/-- READ.LWORD (R194). -/
def execReadLword (s : State) : Result := buildRead .lword s

/-- READ.UNKNOWN (R195). -/
def execReadUnknown (s : State) : Result := buildRead .unknown s

end Sys2Proof.Machine
end

