-- ==== Sys2Proof/Machine/Write.lean ====
section
/-! DEFINITION. The meanings of the six WRITE forms (spec/43_instruction_builder.md R196 to R201): phase
BUILD with the kind and the data type that the form fixes. -/

namespace Sys2Proof.Machine

/-- WRITE.BIT (R196). -/
def execWriteBit (s : State) : Result := buildWrite .bit s

/-- WRITE.BYTE (R197). -/
def execWriteByte (s : State) : Result := buildWrite .byte s

/-- WRITE.WORD (R198). -/
def execWriteWord (s : State) : Result := buildWrite .word s

/-- WRITE.DWORD (R199). -/
def execWriteDword (s : State) : Result := buildWrite .dword s

/-- WRITE.LWORD (R200). -/
def execWriteLword (s : State) : Result := buildWrite .lword s

/-- WRITE.UNKNOWN (R201) under `G_UNKNOWN` (R138). -/
def execWriteUnknown (s : State) : Result := buildWrite .unknown s

end Sys2Proof.Machine
end

