-- ==== Sys2Proof/Machine/Dispatch.lean ====
section
/-! DEFINITION. exec: one arm per instruction form, each one call of its meaning. -/

namespace Sys2Proof.Machine

def exec (i : Instr) (s : State) : Host.Outcome State Fault Refusal :=
  match i with
  | .readBit => Sys2Proof.Machine.execReadBit s
  | .readByte => Sys2Proof.Machine.execReadByte s
  | .readWord => Sys2Proof.Machine.execReadWord s
  | .readDword => Sys2Proof.Machine.execReadDword s
  | .readLword => Sys2Proof.Machine.execReadLword s
  | .readUnknown => Sys2Proof.Machine.execReadUnknown s
  | .writeBit => Sys2Proof.Machine.execWriteBit s
  | .writeByte => Sys2Proof.Machine.execWriteByte s
  | .writeWord => Sys2Proof.Machine.execWriteWord s
  | .writeDword => Sys2Proof.Machine.execWriteDword s
  | .writeLword => Sys2Proof.Machine.execWriteLword s
  | .writeUnknown => Sys2Proof.Machine.execWriteUnknown s

end Sys2Proof.Machine
end

