-- ==== Sys2Proof/Machine/ResponseParser.lean ====
section
/-! DEFINITION. ResponseParser: PARSE_RESPONSE with its fixed offset and its width from the response
(spec/45_response_parser.md R260 to R271). -/

namespace Sys2Proof.Machine

/-- The loop registers I, J, IDX and ACC of R260 (R35). -/
structure LoopRegs where
  i : Nat
  j : Nat
  idx : Int
  acc : U64
  deriving DecidableEq, Repr

/-- `IDX = |RBUF| - J - (I-1)*(NUM+2)`, exact and signed (R265, D28). -/
def parseIndex (len num i j : Nat) : Int :=
  (len : Int) - (j : Int) - ((i : Int) - 1) * ((num : Int) + 2)

/-- `ACC + zext_64(b) * 16^(2*(NUM-J))` modulo 2^64 (R266, D11). -/
def accumulate (acc : U64) (b : Byte) (num j : Nat) : U64 :=
  BitVec.ofNat 64 (acc.toNat + b.toNat * 16 ^ (2 * (num - j)))

/-- The inner loop of R260 with `left` values of J still to come, the next being `NUM - left + 1`. The flag is
whether an index fell out of range, and the registers then hold that (I, J, IDX). -/
def parseInner (r : Bytes) (num : Nat) : Nat → LoopRegs → LoopRegs × Bool
  | 0, regs => (regs, true)
  | left + 1, regs =>
    let j := num - left
    let idx := parseIndex r.length num regs.i j
    if inside : 0 ≤ idx ∧ idx.toNat < r.length then
      parseInner r num left
        { regs with j := j, idx := idx, acc := accumulate regs.acc (memRead r idx.toNat inside.2) num j }
    else ({ regs with j := j, idx := idx }, false)

/-- The outer loop of R260 for I from its argument down to 1: the registers after it, the values appended, and
whether every index was in range (R264). The registers of an inner loop that never ran keep no value. -/
def parseOuter (r : Bytes) (num : Nat) : Nat → Option LoopRegs → List U64 → Option LoopRegs × List U64 × Bool
  | 0, regs, out => (regs, out, true)
  | i + 1, _, out =>
    match parseInner r num num ⟨i + 1, 0, 0, 0⟩ with
    | (regs, true) => parseOuter r num i (some regs) (out ++ [regs.acc])
    | (regs, false) => (some regs, out, false)

/-- COUNT, the number of segments of ADDR_CSV (R263, D10). -/
def deviceCount (addrCsv : Bytes) : Nat := (split addrCsv).length

/-- The state with NUM, COUNT and the loop registers written, which hold the values of the last bodies that ran.
DEDUCED, assumption log 10. -/
def setParseRegs (num : Byte) (count : Nat) (regs : Option LoopRegs) (s : State) : State :=
  { s with
    num := some num
    count := some count
    loopI := regs.map (·.i)
    loopJ := regs.map (·.j)
    idx := regs.map (·.idx)
    acc := regs.map (·.acc) }

/-- The datum of a ProtocolError: the (I, J, IDX) at which the loops ended (R265, R321). -/
def indexInfo : Option LoopRegs → ErrInfo
  | some regs => .index regs.i regs.j regs.idx
  | none => .nothing

/-- PARSE_RESPONSE once NUM is read: a width of 0 is "no data", and else the loops run (R260, R262). -/
def parseWithWidth (r : Bytes) (num : Byte) (s : State) : Result :=
  if num = 0 then .next { s with num := some num, result := [], phase := .done }
  else
    readReg s.addrCsv .addrCsv fun csv =>
      match parseOuter r num.toNat (deviceCount csv) none [] with
      | (regs, out, true) =>
        .next { setParseRegs num (deviceCount csv) regs s with result := out, phase := .done }
      | (regs, _, false) =>
        .next (raise ⟨.protoIndex, indexInfo regs⟩ (setParseRegs num (deviceCount csv) regs s))

/-- PARSE_RESPONSE with PHASE ← DONE when nothing raises (R260, R299). A response of at most 30 bytes is
"no data", whatever it holds (R261). -/
def parseResponse (s : State) : Result :=
  readReg s.rbuf .rbuf fun r =>
    if inside : Config.respWidthOffset < r.length then
      parseWithWidth r (memRead r Config.respWidthOffset inside) s
    else .next { s with result := [], phase := .done }

end Sys2Proof.Machine
end

