-- ==== Sys2Proof/Machine/Sequencer.lean ====
section
/-! DEFINITION. The command sequencer and the transport interface: START, SEND, RECV with write completion, and
PARSE (spec/46_command.md R290 to R304). BUILD is in Machine/Build.lean, END in Machine/Ops.lean. -/

namespace Sys2Proof.Machine

/-- START: the five arguments are latched, the outputs and the build registers are cleared, and PHASE becomes
BUILD (R291, R75). An omitted value list is "0" (R103). -/
def startCommand (c : Command) (s : State) : State :=
  { s with
    family := some c.family
    kindStr := some c.requestKind
    dtypeStr := some c.dataType
    addrCsv := some c.deviceCsv
    valCsv := some (c.valueCsv.getD (ascii ['0']))
    result := []
    errKind := .none
    errDetail := 0
    errInfo := .nothing
    tokens := some []
    ibuf := some []
    vbuf := some []
    hbuf := some []
    frame := some []
    phase := .build }

/-- The effect of an act of the caller in IDLE (R291, R304, R352). Initialising twice changes nothing. -/
def callerAct (a : CallerAct) (s : State) : State :=
  match a with
  | .start c => startCommand c s
  | .initTransport => { s with transport := { s.transport with initDone := true } }
  | .openConnection => { s with transport := { s.transport with connectionOpen := true } }
  | .closeConnection => { s with transport := { s.transport with connectionOpen := false } }
  | .setTimeout t => { s with transport := { s.transport with timeout := t } }

/-- IDLE: the first act of the caller is admitted, and with none the block waits (R291, R329). Assumption
log 4. -/
def idleStep (s : State) : State :=
  match s.env.caller with
  | [] => s
  | a :: later => callerAct a { s with env := { s.env with caller := later } }

/-- The host interface after a `send` of a frame was answered (R296, R304). -/
def logSend (frame : Bytes) (a : SendAnswer) (later : List SendAnswer) (s : State) : State :=
  { s with env := { s.env with sendAnswers := later, trace := s.env.trace ++ [.send frame a] } }

/-- SEND: FRAME is handed over once. OK goes on to RECV, an error raises, and with no answer yet the block
takes no step (R14, R296). Assumption log 5 and 6. -/
def sendStep (s : State) : Result :=
  readReg s.frame .frame fun frame =>
    match s.env.sendAnswers with
    | [] => .next s
    | .ok :: later => .next { logSend frame .ok later s with phase := .recv }
    | .connErr :: later => .next (raise ⟨.connSend, .nothing⟩ (logSend frame .connErr later s))
    | .ioErr :: later => .next (raise ⟨.ioSend, .nothing⟩ (logSend frame .ioErr later s))

/-- The host interface after a `receive(RX_MAX_LEN)` was answered (R297, R304). -/
def logReceive (a : RecvAnswer) (later : List RecvAnswer) (s : State) : State :=
  { s with env := { s.env with
      recvAnswers := later
      trace := s.env.trace ++ [.receive Config.rxMaxLen a] } }

/-- What RECV does with response bytes: RBUF is written; a read goes on to PARSE, and a write completes with
an empty RESULT, its response unread (R297, R298). RBUF keeps the response until END; DEDUCED, assumption log
19. -/
def takeResponse (k : Kind) (r : Bytes) (s : State) : State :=
  match k with
  | .read => { s with rbuf := some r, phase := .parse }
  | .write => { s with rbuf := some r, result := [], phase := .done }

/-- What one `receive(RX_MAX_LEN)` gives of the answer that waits: of the bytes that have arrived at most
RX_MAX_LEN, and an error as it is (R14, R67, D18). Assumption log 5. -/
def drawReceive : RecvAnswer → RecvAnswer
  | .data r => .data (r.take Config.rxMaxLen)
  | .connErr => .connErr
  | .ioErr => .ioErr

/-- The answers that wait after that call: bytes above the bound stay in the stream, which the block never
drains (R41). Assumption log 5. -/
def leaveInStream (a : RecvAnswer) (later : List RecvAnswer) : List RecvAnswer :=
  match a with
  | .data r => if r.length ≤ Config.rxMaxLen then later else .data (r.drop Config.rxMaxLen) :: later
  | .connErr => later
  | .ioErr => later

/-- What RECV does with a draw of `receive`: DATA of one byte or more is the response; a result of 0 bytes is not
positive and raises IO_RECV as an IO_ERR does (R297, D20). -/
def answerReceive (k : Kind) (a : RecvAnswer) (s : State) : State :=
  match a with
  | .data [] => raise ⟨.ioRecv, .nothing⟩ s
  | .data (b :: r) => takeResponse k (b :: r) s
  | .connErr => raise ⟨.connRecv, .nothing⟩ s
  | .ioErr => raise ⟨.ioRecv, .nothing⟩ s

/-- RECV: `receive` is called once, and with no answer yet the block takes no step (R14, R297). Assumption log 5
and 6. -/
def recvStep (s : State) : Result :=
  readReg s.kind .kind fun k =>
    match s.env.recvAnswers with
    | [] => .next s
    | a :: later =>
      .next (answerReceive k (drawReceive a) (logReceive (drawReceive a) (leaveInStream a later) s))

end Sys2Proof.Machine
end

