-- ==== Sys2Proof/Machine/Build.lean ====
section
/-! DEFINITION. Phase BUILD of the sequencer (spec/46_command.md R292): the command's strings select a form
(spec/43_instruction_builder.md R180 to R182), and the form runs. -/

namespace Sys2Proof.Machine

/-- BUILD: the opcode mux and the data-type mux select the form; a request kind other than the two raises
BAD_REQUEST_KIND before anything else is done (R180, R182, R292, R325). -/
def buildStep (s : State) : Result :=
  readReg s.kindStr .kindStr fun kindStr =>
    match kindOfString kindStr with
    | none => .next (raise ⟨.badRequestKind, .nothing⟩ s)
    | some k => readReg s.dtypeStr .dtypeStr fun dtypeStr => exec (formOf k (dataTypeOfString dtypeStr)) s

/-- The command whose form is the given one (R103), with the operands given. -/
def commandOf (i : Instr) (family deviceCsv valueCsv : Bytes) : Command where
  family := family
  requestKind := kindString i
  dataType := dataTypeString i
  deviceCsv := deviceCsv
  valueCsv := some valueCsv

/-- A command whose request kind is illegal (R100): it stands for a word that no form has. -/
def illegalCommand : Command where
  family := []
  requestKind := []
  dataType := []
  deviceCsv := []
  valueCsv := none

/-- The command that a table word stands for, the operand registers kept where they hold a value and empty
where they hold none. Assumption log 3 and 15. -/
def commandOfWord (nbits w : Nat) (s : State) : Command :=
  match decodeTableWord nbits w with
  | some i => commandOf i (s.family.getD []) (s.addrCsv.getD []) (s.valCsv.getD [])
  | none => illegalCommand

end Sys2Proof.Machine
end

