-- ==== Sys2Proof/Machine/Step.lean ====
section
/-! DEFINITION. One step of the machine: a reset if one is asserted, else the step of the phase
(spec/46_command.md R290; spec/70_reset_and_hazards.md R351). -/

namespace Sys2Proof.Machine

/-- One step (R290 to R300, R351). -/
def step (s : State) : Host.Outcome State Fault Refusal :=
  if s.env.resetLine then .next (takeReset s)
  else
    match s.phase with
    | .idle => .next (idleStep s)
    | .build => buildStep s
    | .send => sendStep s
    | .recv => recvStep s
    | .parse => parseResponse s
    | .done => .next (endCommand s)
    | .fault => .next (endCommand s)

/-- The state in which a command of the table word's form has just been started, so that the very next step
runs that form: the START of R291 stands for the load of a program. Assumption log 3. -/
def State.withFetchWord (s : State) (nbits w : Nat) : State :=
  startCommand (commandOfWord nbits w s) { s with env := { s.env with resetLine := false } }

end Sys2Proof.Machine
end

