-- ==== Sys2Proof/Safety.lean ====
section
/-! DEFINITION. What the statements are said in: the invariants of the machine (spec/10_state.md R30, R35, R37,
R42, R43), and the functional form of a command (spec/46_command.md R302). -/

namespace Sys2Proof.Machine

/-- The registers that the rest of a command reads hold values in every phase (R43): the descriptor from START
on (R291), FRAME and KIND once BUILD has run, RBUF in PARSE. -/
def State.ready (s : State) : Bool :=
  match s.phase with
  | .idle | .done | .fault => true
  | .build =>
    s.family.isSome && s.kindStr.isSome && s.dtypeStr.isSome && s.addrCsv.isSome && s.valCsv.isSome
  | .send => s.frame.isSome && s.kind.isSome && s.addrCsv.isSome
  | .recv => s.kind.isSome && s.addrCsv.isSome
  | .parse => s.rbuf.isSome && s.addrCsv.isSome

/-- The error status is NONE (R37, R42). -/
def State.statusClear (s : State) : Prop :=
  s.errKind = .none ∧ s.errDetail = 0 ∧ s.errInfo = .nothing

/-- The error status holds the codes of one of R321's causes. -/
def State.statusRaised (s : State) : Prop :=
  ∃ c : Cause, s.errKind = causeKind c ∧ s.errDetail = causeDetail c

/-- FRAME is the request frame of IBUF with the header that LSIS selects (R90, R234). -/
def State.framed (s : State) : Prop :=
  ∃ lsis ibuf, s.lsis = some lsis ∧ s.ibuf = some ibuf ∧ s.frame = some (requestFrame lsis ibuf)

/-- The invariant of the sequencer: in IDLE the block is as after reset (R30, R42); the error status is set
exactly in FAULT (R37, R324); RESULT is empty outside DONE (R38, R291, R324); from SEND to PARSE FRAME is the
frame of IBUF; only a read is parsed (R297). -/
def State.coherent (s : State) : Prop :=
  (s.phase = .idle → blockReset s = s) ∧
  (s.phase ≠ .fault → s.statusClear) ∧
  (s.phase = .fault → s.statusRaised) ∧
  (s.phase ≠ .done → s.result = []) ∧
  (s.phase = .send ∨ s.phase = .recv ∨ s.phase = .parse → s.framed) ∧
  (s.phase = .parse → s.kind = some .read)

/-- RBUF, where it holds a value, holds 1 to RX_MAX_LEN bytes (R35), and every `receive` so far was called with
the bound RX_MAX_LEN and gave at most that many bytes (R14, R67, D18). -/
def State.responseBounded (s : State) : Prop :=
  (∀ r, s.rbuf = some r → 1 ≤ r.length ∧ r.length ≤ Config.rxMaxLen) ∧
  (∀ m a, TransportEvent.receive m a ∈ s.env.trace →
    m = Config.rxMaxLen ∧ ∀ r, a = .data r → r.length ≤ Config.rxMaxLen)

/-- The 16 header bytes as R91 writes them out, for each header family. -/
def headerBytes (lsis : Bool) : Bytes :=
  if lsis then [0x4C, 0x53, 0x49, 0x53, 0x2D, 0x58, 0x47, 0x54, 0x00, 0x00, 0x00, 0x00, 0x00, 0x33, 0x00, 0x00]
  else [0x4C, 0x47, 0x49, 0x53, 0x2D, 0x47, 0x4C, 0x4F, 0x46, 0x41, 0x00, 0x00, 0x00, 0x33, 0x00, 0x00]

/-- The instruction block as R93 and R94 lay it out, from the four head bytes, the type letter, the tokens and
the value payload. -/
def blockBytes (head : Bytes) (letter : Byte) (tokens : List Bytes) (payload : Bytes) : Bytes :=
  head ++ [0x00, 0x00, lo8 tokens.length, 0x00]
    ++ tokens.flatMap (fun t => [lo8 (2 + t.length), 0x00, 0x25] ++ t.take 1 ++ [letter] ++ t.drop 1)
    ++ payload

/-- The state after a form's BUILD that raised nothing: the decoded control registers, the tokens, the block
given, the header with its trailer and the frame are written, PHASE is SEND, and nothing else changes (R34,
R90, R233 to R235, R292). -/
def builtState (k : Kind) (dt : DataType) (csv family block : Bytes) (s : State) : State :=
  let lsis : Bool := family = [0x58, 0x47, 0x54] ∨ family = [0x58, 0x47, 0x42]
  let hbuf := headerBytes lsis ++ [lo8 block.length, 0x00, 0x00, 0x00]
  { s with
    kind := some k
    dt := some dt
    tokens := some (split csv)
    ibuf := some block
    lsis := some lsis
    hbuf := some hbuf
    frame := some (hbuf ++ block)
    phase := .send }

/-- What one segment of the value list adds to the payload when it does not raise: nothing for a blank one, else
its value block (R186). -/
def segmentBlock (dt : DataType) (seg : Bytes) (pos : Nat) : Bytes :=
  if seg = [] then []
  else
    match encodeValue dt seg pos with
    | .ok block => block
    | .error _ => []

/-- A token as a device: its class letter and its suffix (R161). -/
def tokenDevice (t : Bytes) : Device := ⟨t.headD 0, t.tail⟩

/-- The build of R302 as a function of the descriptor: the frame, or the first ValueError in R325's order. -/
def buildFn (c : Command) : Except Raise Bytes :=
  match decodeDescriptor c.requestKind c.dataType with
  | none => .error ⟨.badRequestKind, .nothing⟩
  | some form =>
    let tokens := split c.deviceCsv
    match checkTokens tokens with
    | some e => .error e
    | none =>
      let block := instructionBlock (kindOf form) (dataTypeOf form) tokens
      match kindOf form with
      | .read => .ok (requestFrame (familyLsis c.family) block)
      | .write =>
        let values := encodeValues (dataTypeOf form) (c.valueCsv.getD (ascii ['0']))
        match values.2 with
        | some e => .error e
        | none => .ok (requestFrame (familyLsis c.family) (block ++ values.1))

/-- The NUM bytes of value region `i` of a response: those that end at `|R| - (i-1)*(NUM+2)` (R101, R267). -/
def region (r : Bytes) (num i : Nat) : Bytes :=
  (r.drop (r.length - (i - 1) * (num + 2) - num)).take num

/-- The values of R267 in the order of R269: region COUNT first, region 1 last, each read little-endian and
kept modulo 2^64. -/
def regionValues (r : Bytes) (num count : Nat) : List U64 :=
  (List.range count).map fun k => BitVec.ofNat 64 (leNat (region r num (count - k)))

/-- The J at which R268 says the parser fails, in the first outer pass. -/
def failingJ (len num count : Nat) : Nat :=
  (max 1 ((len : Int) - ((count : Int) - 1) * ((num : Int) + 2) + 1)).toNat

/-- The parse of R302 as a function of the response and the device list, in the closed forms of R261, R262, R267
and R268. -/
def parseFn (r : Bytes) (addrCsv : Bytes) : Except Raise (List U64) :=
  let num := (r.getD 30 0).toNat
  let count := deviceCount addrCsv
  if r.length ≤ 30 ∨ num = 0 then .ok []
  else if r.length < count * (num + 2) - 2 then
    .error ⟨.protoIndex, .index count (failingJ r.length num count)
      (parseIndex r.length num count (failingJ r.length num count))⟩
  else .ok (regionValues r num count)

/-- The outcome that reports an error (R300, R321). -/
def errOutcome (e : Raise) : CommandOutcome := .err (causeKind e.cause) (causeDetail e.cause) e.info

/-- `command_fn(desc, send_out, recv_out)` (R302). A `receive` of 0 bytes is an IO_RECV (R297). -/
def commandFn (c : Command) (sendOut : SendAnswer) (recvOut : RecvAnswer) : CommandOutcome :=
  match buildFn c with
  | .error e => errOutcome e
  | .ok _ =>
    match sendOut with
    | .connErr => errOutcome ⟨.connSend, .nothing⟩
    | .ioErr => errOutcome ⟨.ioSend, .nothing⟩
    | .ok =>
      match recvOut with
      | .connErr => errOutcome ⟨.connRecv, .nothing⟩
      | .ioErr => errOutcome ⟨.ioRecv, .nothing⟩
      | .data [] => errOutcome ⟨.ioRecv, .nothing⟩
      | .data (b :: r) =>
        if kindOfString c.requestKind = some .write then .ok []
        else
          match parseFn (b :: r) c.deviceCsv with
          | .error e => errOutcome e
          | .ok values => .ok values

/-- The host interface after a command from IDLE that was given these answers, the calls that were not made
leaving their answers where they are (R301, R302). The draw of `receive` is the answer up to RX_MAX_LEN bytes, and
the bytes above that bound stay in the stream (R14, R41). -/
def commandEnv (c : Command) (later : List CallerAct) (a : SendAnswer) (sends : List SendAnswer) (r : RecvAnswer)
    (recvs : List RecvAnswer) (events : List TransportEvent) (env : Env) : Env :=
  { env with
    caller := later
    sendAnswers := if (buildFn c).isOk then sends else a :: sends
    recvAnswers := if (buildFn c).isOk ∧ a = .ok then leaveInStream r recvs else r :: recvs
    trace := env.trace ++ events
    outputs := env.outputs ++ [commandFn c a (drawReceive r)] }

/-- The transport events of a command (R302): `send` only when the build succeeds, with its frame, and
`receive` only when `send` answered OK. -/
def commandEvents (c : Command) (sendOut : SendAnswer) (recvOut : RecvAnswer) : List TransportEvent :=
  match buildFn c with
  | .error _ => []
  | .ok frame =>
    match sendOut with
    | .ok => [.send frame .ok, .receive Config.rxMaxLen recvOut]
    | .connErr => [.send frame .connErr]
    | .ioErr => [.send frame .ioErr]

end Sys2Proof.Machine
end

