-- ==== Sys2Proof/Certificates/Slice0/Obligations.lean ====
section
/-! DEFINITION. The statements about the model, from the numbered rules of spec/. -/

open Sys2Proof Sys2Proof.Machine

-- Encodings

/-- R93, R94, R98: decoding an encoded well-formed block gives it back. The block
decoder is the model's own reading of the formats (assumption log 14). -/
def Obligations.DecodeEncodeRoundTrip : Prop :=
  ∀ b : Block, b.wf = true → decode (encode b) = .ok b

/-- R93, R94, R98, R99: a byte string that decodes is the encoding of the well-formed block it decodes
to (assumption log 14). -/
def Obligations.DecodedBytesAreTheEncoding : Prop :=
  ∀ (bs : Bytes) (b : Block), decode bs = .ok b → b.wf = true ∧ encode b = bs

/-- R93: the opcode is in bits 15..0 of the head word and the data-type code in bits 31..16, for every form, and
the four head bytes are those bits with the least significant byte first. -/
def Obligations.HeadWordHoldsOpcodeAndTypeCode : Prop :=
  ∀ i : Instr,
    ((headWord i).extractLsb 15 0).toNat = opcode (kindOf i) ∧
    ((headWord i).extractLsb 31 16).toNat = typeCode (dataTypeOf i) ∧
    leNat (encodeHead i) = (headWord i).toNat ∧
    (encodeHead i).length = 4

/-- R98: every word of the opcode map decodes to its form. -/
def Obligations.OpcodeMapWordsDecode : Prop :=
  decodeTableWord 32 0x00000054 = some .readBit ∧ decodeTableWord 32 0x00010054 = some .readByte ∧
  decodeTableWord 32 0x00020054 = some .readWord ∧ decodeTableWord 32 0x00030054 = some .readDword ∧
  decodeTableWord 32 0x00040054 = some .readLword ∧ decodeTableWord 32 0x00140054 = some .readUnknown ∧
  decodeTableWord 32 0x00000058 = some .writeBit ∧ decodeTableWord 32 0x00010058 = some .writeByte ∧
  decodeTableWord 32 0x00020058 = some .writeWord ∧ decodeTableWord 32 0x00030058 = some .writeDword ∧
  decodeTableWord 32 0x00040058 = some .writeLword ∧ decodeTableWord 32 0x00140058 = some .writeUnknown

/-- The block that a form has built, of at most 255 devices of at most 252 suffix digits, decodes to that form,
its devices in the order of the tokens, and its value payload (R93, R94, R163, R185). -/
def Obligations.BuiltBlockDecodesToItsForm : Prop :=
  ∀ (i : Instr) (s t : State) (csv : Bytes),
    s.addrCsv = some csv → exec i s = .next t → t.phase = .send →
    (split csv).length ≤ 255 → (∀ tok ∈ split csv, tok.length ≤ 253) →
    ∃ block, t.ibuf = some block ∧
      match kindOf i with
      | .read => decode block = .ok ⟨i, (split csv).map tokenDevice, []⟩
      | .write => ∃ payload, t.vbuf = some payload ∧
          decode block = .ok ⟨i, (split csv).map tokenDevice, payload⟩

-- The muxes

/-- R180: "read" and "write" select their kinds and opcodes; in BUILD any other string raises BAD_REQUEST_KIND,
and nothing else is done. -/
def Obligations.OpcodeMuxIsExact : Prop :=
  (kindOfString [0x72, 0x65, 0x61, 0x64] = some .read ∧ opcode .read = 0x0054) ∧
  (kindOfString [0x77, 0x72, 0x69, 0x74, 0x65] = some .write ∧ opcode .write = 0x0058) ∧
  ∀ (s : State) (str : Bytes),
    s.env.resetLine = false → s.phase = .build → s.kindStr = some str →
    str ≠ [0x72, 0x65, 0x61, 0x64] → str ≠ [0x77, 0x72, 0x69, 0x74, 0x65] →
    step s = .next { s with
      errKind := .valueError, errDetail := 0x31, errInfo := .nothing, result := [], phase := .fault }

/-- R181: the five names select their types exactly; every other string selects Unknown, code 0x0014, letter
'B'. -/
def Obligations.TypeMuxFallsBackToUnknown : Prop :=
  dataTypeOfString [0x62, 0x69, 0x74] = .bit ∧
  dataTypeOfString [0x62, 0x79, 0x74, 0x65] = .byte ∧
  dataTypeOfString [0x77, 0x6F, 0x72, 0x64] = .word ∧
  dataTypeOfString [0x64, 0x77, 0x6F, 0x72, 0x64] = .dword ∧
  dataTypeOfString [0x6C, 0x77, 0x6F, 0x72, 0x64] = .lword ∧
  (∀ str : Bytes, str ≠ [0x62, 0x69, 0x74] → str ≠ [0x62, 0x79, 0x74, 0x65] → str ≠ [0x77, 0x6F, 0x72, 0x64] →
    str ≠ [0x64, 0x77, 0x6F, 0x72, 0x64] → str ≠ [0x6C, 0x77, 0x6F, 0x72, 0x64] →
    dataTypeOfString str = .unknown) ∧
  typeCode .unknown = 0x0014 ∧ typeLetter .unknown = 0x42

-- Running a form

/-- R292, R182: in BUILD, when the command's strings select form i, the step is exec of i at that state. -/
def Obligations.StepRunsTheSelectedForm : Prop :=
  ∀ (s : State) (kindStr dtypeStr : Bytes) (i : Instr),
    s.env.resetLine = false → s.phase = .build → s.kindStr = some kindStr → s.dtypeStr = some dtypeStr →
    decodeDescriptor kindStr dtypeStr = some i → step s = exec i s

/-- The model's choice (assumption log 3): a state with a form's table word placed runs that form next. -/
def Obligations.PlacedWordRunsItsForm : Prop :=
  ∀ (s : State) (i : Instr),
    step (s.withFetchWord 32 (headWord i).toNat) = exec i (s.withFetchWord 32 (headWord i).toNat)

-- The device list

/-- R10: the segments of a split hold no comma, are k + 1 for k commas, and joined by commas give the string
back. -/
def Obligations.SplitKeepsEverySegment : Prop :=
  ∀ s : Bytes,
    (∀ seg ∈ split s, comma ∉ seg) ∧ (split s).length = s.count comma + 1 ∧
    List.intercalate [comma] (split s) = s

/-- R162: the check passes exactly the lists of tokens of the grammar of R104, and otherwise reports the first
token that fails, with its index. -/
def Obligations.CheckTokensReportsTheFirstFailure : Prop :=
  (∀ t : Bytes, isDeviceToken t = true ↔
    ∃ c suffix, t = c :: suffix ∧ (0x41 ≤ c.toNat ∧ c.toNat ≤ 0x5A) ∧ suffix ≠ [] ∧
      ∀ d ∈ suffix, 0x30 ≤ d.toNat ∧ d.toNat ≤ 0x39) ∧
  (∀ tokens : List Bytes, checkTokens tokens = none ↔ ∀ t ∈ tokens, isDeviceToken t = true) ∧
  (∀ (tokens : List Bytes) (k : Nat) (t : Bytes),
    tokens[k]? = some t → isDeviceToken t = false →
    (∀ j u, j < k → tokens[j]? = some u → isDeviceToken u = true) →
    checkTokens tokens = some
      (if t = [] then ⟨.emptyDeviceToken, .position k⟩ else ⟨.malformedDeviceToken, .position k⟩))

-- The value codec

/-- R133: a token parses exactly when it is one or more digits of a value at most 2^64 − 1, to the sum of its
digits' weights, and raises BAD_VALUE_TOKEN with its position otherwise. -/
def Obligations.ParseAcceptsExactlyDecimalU64 : Prop :=
  ∀ (tok : Bytes) (pos : Nat),
    (tok ≠ [] ∧ (∀ d ∈ tok, 0x30 ≤ d.toNat ∧ d.toNat ≤ 0x39) ∧
      (∑ k : Fin tok.length, (tok[k].toNat - 0x30) * 10 ^ (tok.length - 1 - k)) ≤ 2 ^ 64 - 1 →
      ∃ v, parseU64 tok pos = .ok v ∧
        v.toNat = ∑ k : Fin tok.length, (tok[k].toNat - 0x30) * 10 ^ (tok.length - 1 - k)) ∧
    (¬(tok ≠ [] ∧ (∀ d ∈ tok, 0x30 ≤ d.toNat ∧ d.toNat ≤ 0x39) ∧
      (∑ k : Fin tok.length, (tok[k].toNat - 0x30) * 10 ^ (tok.length - 1 - k)) ≤ 2 ^ 64 - 1) →
      parseU64 tok pos = .error ⟨.badValueToken, .position pos⟩)

/-- R131: a Bit value block is the three bytes 01, 00 and the value's low byte; the encoder raises as the parse
does. -/
def Obligations.BitBlockKeepsTheLowByte : Prop :=
  ∀ (tok : Bytes) (pos : Nat),
    (∀ v, parseU64 tok pos = .ok v → encodeValue .bit tok pos = .ok [0x01, 0x00, v.setWidth 8]) ∧
    (∀ e, parseU64 tok pos = .error e → encodeValue .bit tok pos = .error e)

/-- R135: with b the number of bytes of V, at least 1, n = b rounded up to a multiple of G/2 and K = n div 2,
the transform gives 20 00 and the 2K least significant bytes of V, least significant first. -/
def Obligations.ReorderClosedForm : Prop :=
  ∀ (g : Nat) (v : U64) (b n : Nat),
    g = 2 ∨ g = 4 ∨ g = 8 ∨ g = 16 →
    b = max 1 ((Nat.size v.toNat + 7) / 8) →
    n = (b + g / 2 - 1) / (g / 2) * (g / 2) →
    hexBlock g v = [0x20, 0x00] ++ (List.range (2 * (n / 2))).map fun m => lo8 (v.toNat / 256 ^ m)

/-- R136: the block length for every group width and value range of its table. -/
def Obligations.ValueBlockLengths : Prop :=
  ∀ v : U64,
    (v.toNat ≤ 0xFF → (hexBlock 2 v).length = 2) ∧
    (0x100 ≤ v.toNat ∧ v.toNat ≤ 0xFFFF → (hexBlock 2 v).length = 4) ∧
    (0x10000 ≤ v.toNat ∧ v.toNat ≤ 0xFFFFFF → (hexBlock 2 v).length = 4) ∧
    (2 ^ 24 ≤ v.toNat ∧ v.toNat ≤ 2 ^ 32 - 1 → (hexBlock 2 v).length = 6) ∧
    (2 ^ 32 ≤ v.toNat ∧ v.toNat ≤ 2 ^ 40 - 1 → (hexBlock 2 v).length = 6) ∧
    (2 ^ 40 ≤ v.toNat ∧ v.toNat ≤ 2 ^ 48 - 1 → (hexBlock 2 v).length = 8) ∧
    (2 ^ 48 ≤ v.toNat ∧ v.toNat ≤ 2 ^ 56 - 1 → (hexBlock 2 v).length = 8) ∧
    (2 ^ 56 ≤ v.toNat ∧ v.toNat ≤ 2 ^ 64 - 1 → (hexBlock 2 v).length = 10) ∧
    (v.toNat ≤ 0xFFFF → (hexBlock 4 v).length = 4) ∧
    (2 ^ 16 ≤ v.toNat ∧ v.toNat ≤ 2 ^ 32 - 1 → (hexBlock 4 v).length = 6) ∧
    (2 ^ 32 ≤ v.toNat ∧ v.toNat ≤ 2 ^ 48 - 1 → (hexBlock 4 v).length = 8) ∧
    (2 ^ 48 ≤ v.toNat ∧ v.toNat ≤ 2 ^ 64 - 1 → (hexBlock 4 v).length = 10) ∧
    (v.toNat ≤ 2 ^ 32 - 1 → (hexBlock 8 v).length = 6) ∧
    (2 ^ 32 ≤ v.toNat ∧ v.toNat ≤ 2 ^ 64 - 1 → (hexBlock 8 v).length = 10) ∧
    (hexBlock 16 v).length = 10

/-- R139, D14: the Byte encoder is the transform with G = 2, every value in 0..255 is encoded as 20 00 with no
value byte, and a token that does not parse raises. -/
def Obligations.ByteBlockLosesSmallValues : Prop :=
  ∀ (tok : Bytes) (pos : Nat),
    (∀ v, parseU64 tok pos = .ok v → encodeValue .byte tok pos = .ok (hex2bytes (reorder 2 (hexr v)))) ∧
    (∀ v, parseU64 tok pos = .ok v → v.toNat ≤ 255 → encodeValue .byte tok pos = .ok [0x20, 0x00]) ∧
    (∀ e, parseU64 tok pos = .error e → encodeValue .byte tok pos = .error e)

/-- R140, R141, R142: the encoders are the transform with G = 4, 8 and 16; the blocks of values within the type's
width are 20 00 and the value's bytes, least significant first; a token that does not parse raises. -/
def Obligations.HexBlocksInWidthAreLittleEndian : Prop :=
  ∀ (tok : Bytes) (pos : Nat),
    (∀ v, parseU64 tok pos = .ok v →
      encodeValue .word tok pos = .ok (hex2bytes (reorder 4 (hexr v))) ∧
      encodeValue .dword tok pos = .ok (hex2bytes (reorder 8 (hexr v))) ∧
      encodeValue .lword tok pos = .ok (hex2bytes (reorder 16 (hexr v)))) ∧
    (∀ v, parseU64 tok pos = .ok v → v.toNat ≤ 0xFFFF →
      encodeValue .word tok pos =
        .ok ([0x20, 0x00] ++ [v.extractLsb' 0 8, v.extractLsb' 8 8])) ∧
    (∀ v, parseU64 tok pos = .ok v → v.toNat ≤ 0xFFFFFFFF →
      encodeValue .dword tok pos =
        .ok ([0x20, 0x00] ++ [v.extractLsb' 0 8, v.extractLsb' 8 8, v.extractLsb' 16 8, v.extractLsb' 24 8])) ∧
    (∀ v, parseU64 tok pos = .ok v →
      encodeValue .lword tok pos =
        .ok ([0x20, 0x00] ++ [v.extractLsb' 0 8, v.extractLsb' 8 8, v.extractLsb' 16 8, v.extractLsb' 24 8,
          v.extractLsb' 32 8, v.extractLsb' 40 8, v.extractLsb' 48 8, v.extractLsb' 56 8])) ∧
    (∀ e dt, parseU64 tok pos = .error e → dt = .word ∨ dt = .dword ∨ dt = .lword →
      encodeValue dt tok pos = .error e)

/-- R138: under FAULT an Unknown value raises before it is parsed; under a width it is parsed and rendered with
that width; the block uses the OPEN parameter; a value list of blank tokens raises nothing, whatever it is. -/
def Obligations.UnknownValueFollowsTheOpenParameter : Prop :=
  ∀ (tok : Bytes) (pos : Nat),
    (∀ csv : Bytes, (∀ seg ∈ split csv, seg = []) → encodeValues .unknown csv = ([], none)) ∧
    encodeValue .unknown tok pos = encodeUnknown Config.gUnknown tok pos ∧
    encodeUnknown .fault tok pos = .error ⟨.unknownTypeValue, .position pos⟩ ∧
    (∀ v, parseU64 tok pos = .ok v →
      encodeUnknown .width2 tok pos = .ok (hex2bytes (reorder 2 (hexr v))) ∧
      encodeUnknown .width4 tok pos = .ok (hex2bytes (reorder 4 (hexr v))) ∧
      encodeUnknown .width8 tok pos = .ok (hex2bytes (reorder 8 (hexr v))) ∧
      encodeUnknown .width16 tok pos = .ok (hex2bytes (reorder 16 (hexr v)))) ∧
    (∀ e g, parseU64 tok pos = .error e → g ≠ .fault → encodeUnknown g tok pos = .error e)

/-- R186: blank value tokens are skipped, the blocks of the others are appended in order, and the first token
that raises ends the payload. -/
def Obligations.ValuesSkipBlanksAndStopAtTheFirstRaise : Prop :=
  ∀ (dt : DataType) (csv : Bytes),
    ((∀ k seg, (split csv)[k]? = some seg → seg ≠ [] → ∃ b, encodeValue dt seg k = .ok b) →
      encodeValues dt csv = ((split csv).zipIdx.flatMap fun p => segmentBlock dt p.1 p.2, none)) ∧
    (∀ k seg e, (split csv)[k]? = some seg → seg ≠ [] → encodeValue dt seg k = .error e →
      (∀ j u, j < k → (split csv)[j]? = some u → u ≠ [] → ∃ b, encodeValue dt u j = .ok b) →
      (encodeValues dt csv).2 = some e)

-- The forms

/-- R190 to R195: each read form, on device tokens of the grammar, builds its block and frame and goes to
SEND, and changes nothing else. -/
def Obligations.ReadFormsBuildTheirFrame : Prop :=
  ∀ (s : State) (csv family : Bytes),
    s.addrCsv = some csv → s.family = some family → (∀ t ∈ split csv, isDeviceToken t = true) →
    exec .readBit s = .next
      (builtState .read .bit csv family (blockBytes [0x54, 0x00, 0x00, 0x00] 0x58 (split csv) []) s) ∧
    exec .readByte s = .next
      (builtState .read .byte csv family (blockBytes [0x54, 0x00, 0x01, 0x00] 0x42 (split csv) []) s) ∧
    exec .readWord s = .next
      (builtState .read .word csv family (blockBytes [0x54, 0x00, 0x02, 0x00] 0x57 (split csv) []) s) ∧
    exec .readDword s = .next
      (builtState .read .dword csv family (blockBytes [0x54, 0x00, 0x03, 0x00] 0x44 (split csv) []) s) ∧
    exec .readLword s = .next
      (builtState .read .lword csv family (blockBytes [0x54, 0x00, 0x04, 0x00] 0x4C (split csv) []) s) ∧
    exec .readUnknown s = .next
      (builtState .read .unknown csv family (blockBytes [0x54, 0x00, 0x14, 0x00] 0x42 (split csv) []) s)

/-- R196 to R201: each write form, on device tokens of the grammar and a value list whose tokens encode, builds
its block with the value payload after the items and its frame, writes VBUF, goes to SEND, and changes nothing
else. -/
def Obligations.WriteFormsBuildTheirFrame : Prop :=
  ∀ (s : State) (csv vals family payload : Bytes),
    s.addrCsv = some csv → s.valCsv = some vals → s.family = some family →
    (∀ t ∈ split csv, isDeviceToken t = true) →
    (encodeValues .bit vals = (payload, none) → exec .writeBit s = .next
      { builtState .write .bit csv family (blockBytes [0x58, 0x00, 0x00, 0x00] 0x58 (split csv) payload) s with
        vbuf := some payload }) ∧
    (encodeValues .byte vals = (payload, none) → exec .writeByte s = .next
      { builtState .write .byte csv family (blockBytes [0x58, 0x00, 0x01, 0x00] 0x42 (split csv) payload) s with
        vbuf := some payload }) ∧
    (encodeValues .word vals = (payload, none) → exec .writeWord s = .next
      { builtState .write .word csv family (blockBytes [0x58, 0x00, 0x02, 0x00] 0x57 (split csv) payload) s with
        vbuf := some payload }) ∧
    (encodeValues .dword vals = (payload, none) → exec .writeDword s = .next
      { builtState .write .dword csv family (blockBytes [0x58, 0x00, 0x03, 0x00] 0x44 (split csv) payload) s with
        vbuf := some payload }) ∧
    (encodeValues .lword vals = (payload, none) → exec .writeLword s = .next
      { builtState .write .lword csv family (blockBytes [0x58, 0x00, 0x04, 0x00] 0x4C (split csv) payload) s with
        vbuf := some payload }) ∧
    (encodeValues .unknown vals = (payload, none) → exec .writeUnknown s = .next
      { builtState .write .unknown csv family (blockBytes [0x58, 0x00, 0x14, 0x00] 0x42 (split csv) payload) s
        with vbuf := some payload })

/-- R162, R324, R325: when a device token fails, every form raises the check's error before any value token is
read; KIND, DT and TOKENS are written, and no block and no frame (the registers that a raise leaves
are the model's reading, assumption log 11). -/
def Obligations.BadDeviceTokenRaisesInEveryForm : Prop :=
  ∀ (i : Instr) (s : State) (csv : Bytes) (e : Raise),
    s.addrCsv = some csv → checkTokens (split csv) = some e →
    exec i s = .next { s with
      kind := some (kindOf i), dt := some (dataTypeOf i), tokens := some (split csv)
      errKind := causeKind e.cause, errDetail := causeDetail e.cause, errInfo := e.info
      result := [], phase := .fault }

/-- R186, R325: when the device tokens pass and a value token raises, a write form raises that error; IBUF holds
the block without a payload, VBUF the blocks before the failing token (the registers that a raise leaves are
the model's reading, assumption log 11), and no frame is formed. -/
def Obligations.BadValueTokenRaisesInWriteForms : Prop :=
  ∀ (i : Instr) (s : State) (csv vals before : Bytes) (e : Raise),
    kindOf i = .write → s.addrCsv = some csv → s.valCsv = some vals →
    (∀ t ∈ split csv, isDeviceToken t = true) → encodeValues (dataTypeOf i) vals = (before, some e) →
    exec i s = .next { s with
      kind := some .write, dt := some (dataTypeOf i), tokens := some (split csv)
      ibuf := some (blockBytes (encodeHead i) (typeLetter (dataTypeOf i)) (split csv) [])
      vbuf := some before
      errKind := causeKind e.cause, errDetail := causeDetail e.cause, errInfo := e.info
      result := [], phase := .fault }

/-- What every form leaves unchanged when it answers a next state, whether it built a frame or raised: the
descriptor (R32), the parse registers (R35), the transport and the host interface (R40, R235: nothing is sent),
and for a read VBUF. When it raised, also LSIS, HBUF and FRAME (assumption log 11). -/
def Obligations.FormsKeepEveryOtherRegister : Prop :=
  ∀ (i : Instr) (s t : State), exec i s = .next t →
    (t.family = s.family ∧ t.kindStr = s.kindStr ∧ t.dtypeStr = s.dtypeStr ∧ t.addrCsv = s.addrCsv ∧
      t.valCsv = s.valCsv) ∧
    (t.rbuf = s.rbuf ∧ t.num = s.num ∧ t.count = s.count ∧ t.loopI = s.loopI ∧ t.loopJ = s.loopJ ∧
      t.idx = s.idx ∧ t.acc = s.acc) ∧
    t.transport = s.transport ∧ t.env = s.env ∧
    (kindOf i = .read → t.vbuf = s.vbuf) ∧
    (t.phase = .send → t.result = s.result ∧ t.errKind = s.errKind ∧ t.errDetail = s.errDetail ∧
      t.errInfo = s.errInfo) ∧
    (t.phase ≠ .send → t.phase = .fault ∧ t.lsis = s.lsis ∧ t.hbuf = s.hbuf ∧ t.frame = s.frame)

/-- R186: for a read, VAL_CSV is not read at all: changing it changes nothing but itself. -/
def Obligations.ReadsIgnoreTheValueList : Prop :=
  ∀ (i : Instr) (s : State) (vals : Option Bytes), kindOf i = .read →
    exec i { s with valCsv := vals } =
      match exec i s with
      | .next t => .next { t with valCsv := vals }
      | .fault f => .fault f
      | .refused r => .refused r

/-- A form stops only where it reads a register that holds no value (R42, R43): with its operands
and FAMILY loaded it answers a next state, in SEND or in FAULT. -/
def Obligations.FormsStopOnlyOnAnUnwrittenRegister : Prop :=
  (∀ (i : Instr) (s : State), s.addrCsv.isSome = true → s.family.isSome = true → s.valCsv.isSome = true →
    ∃ t, exec i s = .next t ∧ (t.phase = .send ∨ t.phase = .fault)) ∧
  (∀ (i : Instr) (s : State), s.addrCsv = none → exec i s = .fault (.noValue .addrCsv)) ∧
  (∀ (i : Instr) (s : State) (r : Refusal), exec i s ≠ .refused r)

/-- R188: the instruction block is 8 bytes, 4 + |t| for each token t, and the value payload. -/
def Obligations.InstructionBlockLength : Prop :=
  ∀ (i : Instr) (s t : State) (csv : Bytes),
    s.addrCsv = some csv → exec i s = .next t → t.phase = .send →
    ∃ block, t.ibuf = some block ∧
      match kindOf i with
      | .read => block.length = 8 + ((split csv).map fun tok => 4 + tok.length).sum
      | .write => ∃ payload, t.vbuf = some payload ∧
          block.length = 8 + ((split csv).map fun tok => 4 + tok.length).sum + payload.length

/-- R90, R91, R92: the frame that a form builds is the 16 header bytes of the family, the trailer with the low
byte of the block's length, and the block from offset 20 on. -/
def Obligations.FrameLayout : Prop :=
  ∀ (i : Instr) (s t : State) (family : Bytes),
    s.family = some family → exec i s = .next t → t.phase = .send →
    ∃ block frame, t.ibuf = some block ∧ t.frame = some frame ∧
      frame.length = 20 + block.length ∧
      frame.take 16 = headerBytes (family = [0x58, 0x47, 0x54] ∨ family = [0x58, 0x47, 0x42]) ∧
      (frame.drop 16).take 4 = [lo8 block.length, 0x00, 0x00, 0x00] ∧
      frame.drop 20 = block ∧
      t.hbuf = some (frame.take 20)

/-- R99: on every frame a form builds, the PLC header, the CPU header, the invoke id, the pad and reserved bytes
of the trailer and of the instruction block are zero, every item pad is zero, and the opcode and the type code
are the form's. -/
def Obligations.ReservedFieldsAreZero : Prop :=
  ∀ (i : Instr) (s t : State) (csv : Bytes),
    s.addrCsv = some csv → exec i s = .next t → t.phase = .send →
    ∃ frame, t.frame = some frame ∧
      (∀ k ∈ [10, 11, 12, 14, 15, 17, 18, 19, 24, 25, 27], frame[k]? = some (0 : Byte)) ∧
      (frame.drop 20).take 4 = encodeHead i ∧
      (∀ n < (split csv).length,
        frame[28 + (((split csv).take n).map fun tok => 4 + tok.length).sum + 1]? = some (0 : Byte))

/-- R230, R231: "XGT" and "XGB" select the LSIS header, every other family the GLOFA header, and both are 16
bytes. -/
def Obligations.FamilySelectsTheHeader : Prop :=
  ∀ family : Bytes,
    (family = [0x58, 0x47, 0x54] ∨ family = [0x58, 0x47, 0x42] →
      buildHeader (familyLsis family) = headerBytes true) ∧
    (¬(family = [0x58, 0x47, 0x54] ∨ family = [0x58, 0x47, 0x42]) →
      buildHeader (familyLsis family) = headerBytes false) ∧
    (buildHeader (familyLsis family)).length = 16

-- Errors

/-- R324: what a raise writes, and that it writes nothing else. -/
def Obligations.RaiseEffect : Prop :=
  ∀ (e : Raise) (s : State),
    raise e s = { s with
      errKind := causeKind e.cause, errDetail := causeDetail e.cause, errInfo := e.info
      result := [], phase := .fault }

/-- R321: the kind and the detail code of every cause. -/
def Obligations.CauseCodes : Prop :=
  ((errKindCode (causeKind .connSend), causeDetail .connSend) = (1, 0x01)) ∧
  ((errKindCode (causeKind .connRecv), causeDetail .connRecv) = (1, 0x02)) ∧
  ((errKindCode (causeKind .ioSend), causeDetail .ioSend) = (2, 0x11)) ∧
  ((errKindCode (causeKind .ioRecv), causeDetail .ioRecv) = (2, 0x12)) ∧
  ((errKindCode (causeKind .protoIndex), causeDetail .protoIndex) = (3, 0x21)) ∧
  ((errKindCode (causeKind .badRequestKind), causeDetail .badRequestKind) = (4, 0x31)) ∧
  ((errKindCode (causeKind .emptyDeviceToken), causeDetail .emptyDeviceToken) = (4, 0x32)) ∧
  ((errKindCode (causeKind .malformedDeviceToken), causeDetail .malformedDeviceToken) = (4, 0x33)) ∧
  ((errKindCode (causeKind .badValueToken), causeDetail .badValueToken) = (4, 0x34)) ∧
  ((errKindCode (causeKind .unknownTypeValue), causeDetail .unknownTypeValue) = (4, 0x35))

-- The response parser

/-- R261, R262: a response of at most 30 bytes, or with a width byte of 0, gives an empty RESULT and DONE, and
no loop register is written. -/
def Obligations.ShortOrZeroWidthResponseIsNoData : Prop :=
  ∀ (s : State) (r : Bytes),
    s.env.resetLine = false → s.phase = .parse → s.rbuf = some r →
    (r.length ≤ 30 → step s = .next { s with result := [], phase := .done }) ∧
    (r[30]? = some 0 → step s = .next { s with num := some 0, result := [], phase := .done })

/-- R267, R269, R271: when no index is out of range, RESULT has COUNT values, and RESULT[k] is the little-endian
number of region COUNT − k modulo 2^64, which is that of the region's 8 lowest-addressed bytes. -/
def Obligations.ParsedValuesAreLittleEndianRegions : Prop :=
  ∀ (s : State) (r csv : Bytes) (num : Byte) (count : Nat),
    s.rbuf = some r → s.addrCsv = some csv → r[30]? = some num → num ≠ 0 → count = (split csv).length →
    count * (num.toNat + 2) - 2 ≤ r.length →
    ∃ t, parseResponse s = .next t ∧ t.phase = .done ∧ t.num = some num ∧ t.count = some count ∧
      t.result.length = count ∧
      ∀ k, k < count → ∃ v, t.result[k]? = some v ∧
        v = BitVec.ofNat 64 (leNat (region r num.toNat (count - k))) ∧
        v.toNat = leNat ((region r num.toNat (count - k)).take 8) ∧
        (region r num.toNat (count - k)).length = num.toNat

/-- R268, R265: the parser raises PROTO_INDEX exactly below that length, in the first outer pass, at the J that
the rule gives, with a negative index, and RESULT is then empty; from that length on it ends in DONE. -/
def Obligations.ParserFailureLaw : Prop :=
  ∀ (s : State) (r csv : Bytes) (num : Byte) (count : Nat) (j idx : Int),
    s.rbuf = some r → s.addrCsv = some csv → 30 < r.length → r[30]? = some num → num ≠ 0 →
    count = (split csv).length →
    j = max 1 ((r.length : Int) - ((count : Int) - 1) * ((num.toNat : Int) + 2) + 1) →
    idx = (r.length : Int) - j - ((count : Int) - 1) * ((num.toNat : Int) + 2) →
    (r.length < count * (num.toNat + 2) - 2 →
      ∃ t, parseResponse s = .next t ∧ t.phase = .fault ∧ t.errKind = .protocolError ∧ t.errDetail = 0x21 ∧
        t.errInfo = .index count j.toNat idx ∧ t.result = [] ∧ idx < 0) ∧
    (count * (num.toNat + 2) - 2 ≤ r.length → ∃ t, parseResponse s = .next t ∧ t.phase = .done)

/-- What PARSE leaves unchanged: every register but the parse registers, RESULT, the error status and PHASE, and
of the parse registers RBUF; it never stops when RBUF and ADDR_CSV hold values (R260, R324). -/
def Obligations.ParserKeepsEveryOtherRegister : Prop :=
  ∀ s : State, s.rbuf.isSome = true → s.addrCsv.isSome = true →
    ∃ t, parseResponse s = .next t ∧ (t.phase = .done ∨ t.phase = .fault) ∧
      t.family = s.family ∧ t.kindStr = s.kindStr ∧ t.dtypeStr = s.dtypeStr ∧ t.addrCsv = s.addrCsv ∧
      t.valCsv = s.valCsv ∧ t.kind = s.kind ∧ t.dt = s.dt ∧ t.lsis = s.lsis ∧ t.tokens = s.tokens ∧
      t.ibuf = s.ibuf ∧ t.vbuf = s.vbuf ∧ t.hbuf = s.hbuf ∧ t.frame = s.frame ∧ t.rbuf = s.rbuf ∧
      t.transport = s.transport ∧ t.env = s.env ∧
      (t.phase = .done → t.errKind = s.errKind ∧ t.errDetail = s.errDetail ∧ t.errInfo = s.errInfo)

-- The sequencer

/-- R291: what START writes, the omitted value list as "0"; outside IDLE no start is admitted. That the START is
the first of a queue of the caller's acts is the model's form (assumption log 4). -/
def Obligations.StartLatchesTheDescriptor : Prop :=
  (∀ s t : State, s.env.resetLine = false → s.phase ≠ .idle → step s = .next t →
    t.env.caller = s.env.caller ∧ t.phase ≠ .build) ∧
  ∀ (s : State) (c : Command) (later : List CallerAct),
    s.env.resetLine = false → s.phase = .idle → s.env.caller = .start c :: later →
    step s = .next { s with
      family := some c.family, kindStr := some c.requestKind, dtypeStr := some c.dataType
      addrCsv := some c.deviceCsv
      valCsv := some (match c.valueCsv with
        | some v => v
        | none => [0x30])
      result := [], errKind := .none, errDetail := 0, errInfo := .nothing
      tokens := some [], ibuf := some [], vbuf := some [], hbuf := some [], frame := some []
      phase := .build
      env := { s.env with caller := later } }

/-- R75, R354: from BUILD to PARSE no step but a reset changes the descriptor, whatever the caller's acts that
wait are; and those acts do not change what the step does otherwise. The queue of acts is the model's form
(assumption log 4). -/
def Obligations.DescriptorIsLatched : Prop :=
  (∀ s t : State, s.env.resetLine = false → s.phase ≠ .idle → s.phase ≠ .done → s.phase ≠ .fault →
    step s = .next t →
    t.family = s.family ∧ t.kindStr = s.kindStr ∧ t.dtypeStr = s.dtypeStr ∧ t.addrCsv = s.addrCsv ∧
    t.valCsv = s.valCsv) ∧
  (∀ (s t : State) (acts : List CallerAct), s.phase ≠ .idle → step s = .next t →
    step { s with env := { s.env with caller := acts } } =
      .next { t with env := { t.env with caller := acts } })

/-- R296: what each answer of `send` does; the frame is handed over whole. That the call and its answer are one
step, with the event logged, is the model's form (assumption log 5, 6 and 13). -/
def Obligations.SendAnswers : Prop :=
  ∀ (s : State) (frame : Bytes) (a : SendAnswer) (later : List SendAnswer),
    s.env.resetLine = false → s.phase = .send → s.frame = some frame → s.env.sendAnswers = a :: later →
    step s = .next
      (match a with
      | .ok => { s with
          phase := .recv
          env := { s.env with sendAnswers := later, trace := s.env.trace ++ [.send frame .ok] } }
      | .connErr => { s with
          errKind := .connectionError, errDetail := 0x01, errInfo := .nothing, result := [], phase := .fault
          env := { s.env with sendAnswers := later, trace := s.env.trace ++ [.send frame .connErr] } }
      | .ioErr => { s with
          errKind := .ioError, errDetail := 0x11, errInfo := .nothing, result := [], phase := .fault
          env := { s.env with sendAnswers := later, trace := s.env.trace ++ [.send frame .ioErr] } })

/-- R297, R298, R14: what each answer of `receive` does, for a read and for a write; of the bytes that have arrived
at most RX_MAX_LEN are taken, and the others stay in the stream; 0 bytes are an IO_RECV. That the call and its
answer are one step, that the answers are a queue whose surplus bytes come first, and that RBUF keeps a write's
response until END, is the model's form (assumption log 5, 6, 13 and 19). -/
def Obligations.ReceiveAnswers : Prop :=
  ∀ (s : State) (k : Kind) (a : RecvAnswer) (later : List RecvAnswer),
    s.env.resetLine = false → s.phase = .recv → s.kind = some k → s.env.recvAnswers = a :: later →
    step s = .next
      (match a, k with
      | .connErr, _ => { s with
          errKind := .connectionError, errDetail := 0x02, errInfo := .nothing, result := [], phase := .fault
          env := { s.env with
            recvAnswers := later, trace := s.env.trace ++ [.receive Config.rxMaxLen .connErr] } }
      | .ioErr, _ => { s with
          errKind := .ioError, errDetail := 0x12, errInfo := .nothing, result := [], phase := .fault
          env := { s.env with
            recvAnswers := later, trace := s.env.trace ++ [.receive Config.rxMaxLen .ioErr] } }
      | .data [], _ => { s with
          errKind := .ioError, errDetail := 0x12, errInfo := .nothing, result := [], phase := .fault
          env := { s.env with
            recvAnswers := later, trace := s.env.trace ++ [.receive Config.rxMaxLen (.data [])] } }
      | .data (b :: r), .read => { s with
          rbuf := some ((b :: r).take Config.rxMaxLen), phase := .parse
          env := { s.env with
            recvAnswers := if (b :: r).length ≤ Config.rxMaxLen then later
              else .data ((b :: r).drop Config.rxMaxLen) :: later
            trace := s.env.trace ++ [.receive Config.rxMaxLen (.data ((b :: r).take Config.rxMaxLen))] } }
      | .data (b :: r), .write => { s with
          rbuf := some ((b :: r).take Config.rxMaxLen), result := [], phase := .done
          env := { s.env with
            recvAnswers := if (b :: r).length ≤ Config.rxMaxLen then later
              else .data ((b :: r).drop Config.rxMaxLen) :: later
            trace := s.env.trace ++ [.receive Config.rxMaxLen (.data ((b :: r).take Config.rxMaxLen))] } })

/-- R14, R329: with no answer, or no act of the caller, the block takes no step and loses no state (that a wait
is a step to the same state is the model's form, assumption log 4 and 5). -/
def Obligations.WaitingKeepsTheState : Prop :=
  ∀ s : State, s.env.resetLine = false →
    (s.phase = .idle → s.env.caller = [] → step s = .next s) ∧
    (s.phase = .send → s.frame.isSome = true → s.env.sendAnswers = [] → step s = .next s) ∧
    (s.phase = .recv → s.kind.isSome = true → s.env.recvAnswers = [] → step s = .next s)

/-- R300, R326, R42: END hands over RESULT or the error, and every register of the block is as after reset. That
END is taken at once and its output logged is the model's form (assumption log 4 and 13). -/
def Obligations.EndReturnsToReset : Prop :=
  ∀ s : State, s.env.resetLine = false →
    (s.phase = .done → step s = .next { State.reset with
      transport := s.transport
      env := { s.env with outputs := s.env.outputs ++ [.ok s.result] } }) ∧
    (s.phase = .fault → step s = .next { State.reset with
      transport := s.transport
      env := { s.env with outputs := s.env.outputs ++ [.err s.errKind s.errDetail s.errInfo] } })

/-- R351: a reset in any phase abandons the command, with the transport state as it was. In SEND some bytes of
FRAME, from none to all of it, have been handed over: how many is a free value. Elsewhere no event is added or
taken back, so that a frame that was sent stays sent. That reset is a line which the step takes back, that the
pending inputs stay, and the event, is the model's form (assumption log 6 and 7). -/
def Obligations.ResetAbandonsTheCommand : Prop :=
  ∀ s : State, s.env.resetLine = true →
    (s.phase ≠ .send ∨ s.frame = none → step s = .next { State.reset with
      transport := s.transport
      env := { s.env with resetLine := false } }) ∧
    (∀ frame, s.phase = .send → s.frame = some frame → step s = .next { State.reset with
      transport := s.transport
      env := { s.env with
        resetLine := false
        trace := s.env.trace ++ [.sendAbandoned (frame.take (Config.handedOver s.env.abandonedSends))]
        abandonedSends := s.env.abandonedSends + 1 } })

/-- R42, R350: the values right after reset. -/
def Obligations.ResetValues : Prop :=
  phaseCode State.reset.phase = 0 ∧
  (State.reset.family = none ∧ State.reset.kindStr = none ∧ State.reset.dtypeStr = none ∧
    State.reset.addrCsv = none ∧ State.reset.valCsv = none) ∧
  (State.reset.kind = none ∧ State.reset.dt = none ∧ State.reset.lsis = none) ∧
  (State.reset.tokens = none ∧ State.reset.ibuf = none ∧ State.reset.vbuf = none ∧ State.reset.hbuf = none ∧
    State.reset.frame = none) ∧
  (State.reset.rbuf = none ∧ State.reset.num = none ∧ State.reset.count = none ∧ State.reset.loopI = none ∧
    State.reset.loopJ = none ∧ State.reset.idx = none ∧ State.reset.acc = none) ∧
  State.reset.result = [] ∧ errKindCode State.reset.errKind = 0 ∧ State.reset.errDetail = 0 ∧
  State.reset.errInfo = .nothing

/-- R301, R72, R351: one step adds at most one transport event: one `send` of FRAME in SEND, or on a reset there the
part of FRAME that was handed over, one `receive` in RECV, and none in any other phase; so no step repeats a call (the log of events is the model's form, assumption log 6
and 13). -/
def Obligations.OneTransportEventAStep : Prop :=
  ∀ s t : State, step s = .next t →
    t.env.trace = s.env.trace ∨
    (s.phase = .send ∧ (t.phase = .recv ∨ t.phase = .fault) ∧
      ∃ frame a, s.frame = some frame ∧ t.env.trace = s.env.trace ++ [.send frame a]) ∨
    (s.phase = .recv ∧ (t.phase = .parse ∨ t.phase = .done ∨ t.phase = .fault) ∧
      ∃ a, t.env.trace = s.env.trace ++ [.receive Config.rxMaxLen a]) ∨
    (s.phase = .send ∧ s.env.resetLine = true ∧ t.phase = .idle ∧
      ∃ frame n, s.frame = some frame ∧ t.env.trace = s.env.trace ++ [.sendAbandoned (frame.take n)])

/-- R290: the only changes of PHASE are those of the sequencer's diagram, with a reset to IDLE in any phase and
a wait in IDLE, SEND and RECV (a wait as a step, and the reset line, are the model's form, assumption log 4, 5
and 7). -/
def Obligations.PhaseTransitions : Prop :=
  ∀ s t : State, step s = .next t →
    match s.phase with
    | .idle => t.phase = .idle ∨ t.phase = .build
    | .build => t.phase = .send ∨ t.phase = .fault ∨ (s.env.resetLine = true ∧ t.phase = .idle)
    | .send => t.phase = .send ∨ t.phase = .recv ∨ t.phase = .fault ∨
        (s.env.resetLine = true ∧ t.phase = .idle)
    | .recv => t.phase = .recv ∨ t.phase = .fault ∨ (s.kind = some .read ∧ t.phase = .parse) ∨
        (s.kind = some .write ∧ t.phase = .done) ∨ (s.env.resetLine = true ∧ t.phase = .idle)
    | .parse => t.phase = .done ∨ t.phase = .fault ∨ (s.env.resetLine = true ∧ t.phase = .idle)
    | .done => t.phase = .idle
    | .fault => t.phase = .idle

/-- R40, R351: no step outside IDLE changes the transport state; in IDLE only the caller's acts on the transport
do (R304), and initialising twice changes nothing (R352). The caller's acts as data are the model's form
(assumption log 4 and 12). -/
def Obligations.TransportStateIsTheCallers : Prop :=
  (∀ s t : State, step s = .next t → t.transport ≠ s.transport →
    s.phase = .idle ∧ ∃ a later, s.env.caller = a :: later ∧ ∀ c, a ≠ .start c) ∧
  (∀ s : State, callerAct .initTransport (callerAct .initTransport s) = callerAct .initTransport s ∧
    (callerAct .initTransport s).transport.initDone = true)

/-- R302: from IDLE, with a START first in the caller's queue and an answer for each call, at most six steps
carry out the command and give the outcome of `command_fn`; the calls made, the answers taken and the events are
those of the function, and the block is as after reset. The draw of `receive` is the answer that waits, up to
RX_MAX_LEN bytes. The queues and logs are the model's form (assumption log 4, 5, 6 and 13). -/
def Obligations.CommandRefinesItsFunction : Prop :=
  ∀ (s : State) (c : Command) (later : List CallerAct) (a : SendAnswer) (sends : List SendAnswer)
    (r : RecvAnswer) (recvs : List RecvAnswer),
    s.phase = .idle → s.env.resetLine = false → s.env.caller = .start c :: later →
    s.env.sendAnswers = a :: sends → s.env.recvAnswers = r :: recvs →
    ∃ n ≤ 6, Host.Core.run Sys2Proof.core n s = .next { State.reset with
      transport := s.transport
      env := commandEnv c later a sends r recvs (commandEvents c a (drawReceive r)) s.env }

-- Invariants

/-- R43: from a state whose phase has the registers it reads, no step stops, and the next state is such a state
again (that a read of a register with no value faults is R42's own). -/
def Obligations.NoReadBeforeWrite : Prop :=
  ∀ s : State, s.ready = true → ∃ t, step s = .next t ∧ t.ready = true

/-- R43, R350: the state after reset is such a state, and so is the state after every START. -/
def Obligations.ResetAndStartAreReady : Prop :=
  State.reset.ready = true ∧ ∀ (c : Command) (s : State), (startCommand c s).ready = true

/-- R30, R37, R38, R42: the sequencer's invariant is kept by every step. -/
def Obligations.StepKeepsCoherence : Prop :=
  ∀ s t : State, s.coherent → step s = .next t → t.coherent

/-- The sequencer's invariant holds after reset (R350). -/
def Obligations.ResetIsCoherent : Prop := State.reset.coherent

/-- R35, R14, R67: RBUF holds 1 to RX_MAX_LEN bytes and every `receive` was called with that bound and gave no
more, whatever the answers that wait; every step keeps that. -/
def Obligations.StepKeepsTheResponseBound : Prop :=
  ∀ s t : State, s.responseBounded → step s = .next t → t.responseBounded

/-- The response bound holds after reset, where RBUF holds no value and no call has been made. -/
def Obligations.ResetIsResponseBounded : Prop := State.reset.responseBounded

/-- R12, R60: a request buffer is a row of bytes at addresses 0, 1, 2, …; an append leaves every byte that the
buffer had where it was and puts the new bytes at the addresses from |BUF| on. -/
def Obligations.AppendKeepsTheBytesBefore : Prop :=
  ∀ (buf v : Bytes) (k : Nat),
    (k < buf.length → (memAppend buf v)[k]? = buf[k]?) ∧
    (memAppend buf v)[buf.length + k]? = v[k]? ∧
    bufferCells (memAppend buf v) =
      bufferCells buf ++ (bufferCells v).map fun cell => (buf.length + cell.1, cell.2)
end

