-- ==== Sys2Proof/Laws/State.lean ====
section
/-! SUPPORT. The small lemmas of State: for each named update, what each field holds after it. -/

namespace Sys2Proof.Machine

@[simp] theorem raise_phase (e : Raise) (s : State) : (raise e s).phase = .fault := rfl
@[simp] theorem raise_family (e : Raise) (s : State) : (raise e s).family = s.family := rfl
@[simp] theorem raise_kindStr (e : Raise) (s : State) : (raise e s).kindStr = s.kindStr := rfl
@[simp] theorem raise_dtypeStr (e : Raise) (s : State) : (raise e s).dtypeStr = s.dtypeStr := rfl
@[simp] theorem raise_addrCsv (e : Raise) (s : State) : (raise e s).addrCsv = s.addrCsv := rfl
@[simp] theorem raise_valCsv (e : Raise) (s : State) : (raise e s).valCsv = s.valCsv := rfl
@[simp] theorem raise_kind (e : Raise) (s : State) : (raise e s).kind = s.kind := rfl
@[simp] theorem raise_dt (e : Raise) (s : State) : (raise e s).dt = s.dt := rfl
@[simp] theorem raise_lsis (e : Raise) (s : State) : (raise e s).lsis = s.lsis := rfl
@[simp] theorem raise_tokens (e : Raise) (s : State) : (raise e s).tokens = s.tokens := rfl
@[simp] theorem raise_ibuf (e : Raise) (s : State) : (raise e s).ibuf = s.ibuf := rfl
@[simp] theorem raise_vbuf (e : Raise) (s : State) : (raise e s).vbuf = s.vbuf := rfl
@[simp] theorem raise_hbuf (e : Raise) (s : State) : (raise e s).hbuf = s.hbuf := rfl
@[simp] theorem raise_frame (e : Raise) (s : State) : (raise e s).frame = s.frame := rfl
@[simp] theorem raise_rbuf (e : Raise) (s : State) : (raise e s).rbuf = s.rbuf := rfl
@[simp] theorem raise_num (e : Raise) (s : State) : (raise e s).num = s.num := rfl
@[simp] theorem raise_count (e : Raise) (s : State) : (raise e s).count = s.count := rfl
@[simp] theorem raise_loopI (e : Raise) (s : State) : (raise e s).loopI = s.loopI := rfl
@[simp] theorem raise_loopJ (e : Raise) (s : State) : (raise e s).loopJ = s.loopJ := rfl
@[simp] theorem raise_idx (e : Raise) (s : State) : (raise e s).idx = s.idx := rfl
@[simp] theorem raise_acc (e : Raise) (s : State) : (raise e s).acc = s.acc := rfl
@[simp] theorem raise_result (e : Raise) (s : State) : (raise e s).result = [] := rfl
@[simp] theorem raise_errKind (e : Raise) (s : State) : (raise e s).errKind = causeKind e.cause := rfl
@[simp] theorem raise_errDetail (e : Raise) (s : State) : (raise e s).errDetail = causeDetail e.cause := rfl
@[simp] theorem raise_errInfo (e : Raise) (s : State) : (raise e s).errInfo = e.info := rfl
@[simp] theorem raise_transport (e : Raise) (s : State) : (raise e s).transport = s.transport := rfl
@[simp] theorem raise_env (e : Raise) (s : State) : (raise e s).env = s.env := rfl

@[simp] theorem blockReset_phase (s : State) : (blockReset s).phase = .idle := rfl
@[simp] theorem blockReset_family (s : State) : (blockReset s).family = none := rfl
@[simp] theorem blockReset_kindStr (s : State) : (blockReset s).kindStr = none := rfl
@[simp] theorem blockReset_dtypeStr (s : State) : (blockReset s).dtypeStr = none := rfl
@[simp] theorem blockReset_addrCsv (s : State) : (blockReset s).addrCsv = none := rfl
@[simp] theorem blockReset_valCsv (s : State) : (blockReset s).valCsv = none := rfl
@[simp] theorem blockReset_kind (s : State) : (blockReset s).kind = none := rfl
@[simp] theorem blockReset_dt (s : State) : (blockReset s).dt = none := rfl
@[simp] theorem blockReset_lsis (s : State) : (blockReset s).lsis = none := rfl
@[simp] theorem blockReset_tokens (s : State) : (blockReset s).tokens = none := rfl
@[simp] theorem blockReset_ibuf (s : State) : (blockReset s).ibuf = none := rfl
@[simp] theorem blockReset_vbuf (s : State) : (blockReset s).vbuf = none := rfl
@[simp] theorem blockReset_hbuf (s : State) : (blockReset s).hbuf = none := rfl
@[simp] theorem blockReset_frame (s : State) : (blockReset s).frame = none := rfl
@[simp] theorem blockReset_rbuf (s : State) : (blockReset s).rbuf = none := rfl
@[simp] theorem blockReset_num (s : State) : (blockReset s).num = none := rfl
@[simp] theorem blockReset_count (s : State) : (blockReset s).count = none := rfl
@[simp] theorem blockReset_loopI (s : State) : (blockReset s).loopI = none := rfl
@[simp] theorem blockReset_loopJ (s : State) : (blockReset s).loopJ = none := rfl
@[simp] theorem blockReset_idx (s : State) : (blockReset s).idx = none := rfl
@[simp] theorem blockReset_acc (s : State) : (blockReset s).acc = none := rfl
@[simp] theorem blockReset_result (s : State) : (blockReset s).result = [] := rfl
@[simp] theorem blockReset_errKind (s : State) : (blockReset s).errKind = .none := rfl
@[simp] theorem blockReset_errDetail (s : State) : (blockReset s).errDetail = 0 := rfl
@[simp] theorem blockReset_errInfo (s : State) : (blockReset s).errInfo = .nothing := rfl
@[simp] theorem blockReset_transport (s : State) : (blockReset s).transport = s.transport := rfl
@[simp] theorem blockReset_env (s : State) : (blockReset s).env = s.env := rfl

@[simp] theorem endCommand_phase (s : State) : (endCommand s).phase = .idle := rfl
@[simp] theorem endCommand_family (s : State) : (endCommand s).family = none := rfl
@[simp] theorem endCommand_kindStr (s : State) : (endCommand s).kindStr = none := rfl
@[simp] theorem endCommand_dtypeStr (s : State) : (endCommand s).dtypeStr = none := rfl
@[simp] theorem endCommand_addrCsv (s : State) : (endCommand s).addrCsv = none := rfl
@[simp] theorem endCommand_valCsv (s : State) : (endCommand s).valCsv = none := rfl
@[simp] theorem endCommand_kind (s : State) : (endCommand s).kind = none := rfl
@[simp] theorem endCommand_dt (s : State) : (endCommand s).dt = none := rfl
@[simp] theorem endCommand_lsis (s : State) : (endCommand s).lsis = none := rfl
@[simp] theorem endCommand_tokens (s : State) : (endCommand s).tokens = none := rfl
@[simp] theorem endCommand_ibuf (s : State) : (endCommand s).ibuf = none := rfl
@[simp] theorem endCommand_vbuf (s : State) : (endCommand s).vbuf = none := rfl
@[simp] theorem endCommand_hbuf (s : State) : (endCommand s).hbuf = none := rfl
@[simp] theorem endCommand_frame (s : State) : (endCommand s).frame = none := rfl
@[simp] theorem endCommand_rbuf (s : State) : (endCommand s).rbuf = none := rfl
@[simp] theorem endCommand_num (s : State) : (endCommand s).num = none := rfl
@[simp] theorem endCommand_count (s : State) : (endCommand s).count = none := rfl
@[simp] theorem endCommand_loopI (s : State) : (endCommand s).loopI = none := rfl
@[simp] theorem endCommand_loopJ (s : State) : (endCommand s).loopJ = none := rfl
@[simp] theorem endCommand_idx (s : State) : (endCommand s).idx = none := rfl
@[simp] theorem endCommand_acc (s : State) : (endCommand s).acc = none := rfl
@[simp] theorem endCommand_result (s : State) : (endCommand s).result = [] := rfl
@[simp] theorem endCommand_errKind (s : State) : (endCommand s).errKind = .none := rfl
@[simp] theorem endCommand_errDetail (s : State) : (endCommand s).errDetail = 0 := rfl
@[simp] theorem endCommand_errInfo (s : State) : (endCommand s).errInfo = .nothing := rfl
@[simp] theorem endCommand_transport (s : State) : (endCommand s).transport = s.transport := rfl
@[simp] theorem endCommand_env (s : State) :
    (endCommand s).env = { s.env with outputs := s.env.outputs ++ [commandOutcome s] } := rfl

@[simp] theorem takeReset_phase (s : State) : (takeReset s).phase = .idle := rfl
@[simp] theorem takeReset_family (s : State) : (takeReset s).family = none := rfl
@[simp] theorem takeReset_kindStr (s : State) : (takeReset s).kindStr = none := rfl
@[simp] theorem takeReset_dtypeStr (s : State) : (takeReset s).dtypeStr = none := rfl
@[simp] theorem takeReset_addrCsv (s : State) : (takeReset s).addrCsv = none := rfl
@[simp] theorem takeReset_valCsv (s : State) : (takeReset s).valCsv = none := rfl
@[simp] theorem takeReset_kind (s : State) : (takeReset s).kind = none := rfl
@[simp] theorem takeReset_dt (s : State) : (takeReset s).dt = none := rfl
@[simp] theorem takeReset_lsis (s : State) : (takeReset s).lsis = none := rfl
@[simp] theorem takeReset_tokens (s : State) : (takeReset s).tokens = none := rfl
@[simp] theorem takeReset_ibuf (s : State) : (takeReset s).ibuf = none := rfl
@[simp] theorem takeReset_vbuf (s : State) : (takeReset s).vbuf = none := rfl
@[simp] theorem takeReset_hbuf (s : State) : (takeReset s).hbuf = none := rfl
@[simp] theorem takeReset_frame (s : State) : (takeReset s).frame = none := rfl
@[simp] theorem takeReset_rbuf (s : State) : (takeReset s).rbuf = none := rfl
@[simp] theorem takeReset_num (s : State) : (takeReset s).num = none := rfl
@[simp] theorem takeReset_count (s : State) : (takeReset s).count = none := rfl
@[simp] theorem takeReset_loopI (s : State) : (takeReset s).loopI = none := rfl
@[simp] theorem takeReset_loopJ (s : State) : (takeReset s).loopJ = none := rfl
@[simp] theorem takeReset_idx (s : State) : (takeReset s).idx = none := rfl
@[simp] theorem takeReset_acc (s : State) : (takeReset s).acc = none := rfl
@[simp] theorem takeReset_result (s : State) : (takeReset s).result = [] := rfl
@[simp] theorem takeReset_errKind (s : State) : (takeReset s).errKind = .none := rfl
@[simp] theorem takeReset_errDetail (s : State) : (takeReset s).errDetail = 0 := rfl
@[simp] theorem takeReset_errInfo (s : State) : (takeReset s).errInfo = .nothing := rfl
@[simp] theorem takeReset_transport (s : State) : (takeReset s).transport = s.transport := rfl
@[simp] theorem takeReset_env (s : State) :
    (takeReset s).env = { abandonCommand s with resetLine := false } := rfl

@[simp] theorem startCommand_phase (c : Command) (s : State) : (startCommand c s).phase = .build := rfl
@[simp] theorem startCommand_family (c : Command) (s : State) : (startCommand c s).family = some c.family := rfl
@[simp] theorem startCommand_kindStr (c : Command) (s : State) :
    (startCommand c s).kindStr = some c.requestKind := rfl
@[simp] theorem startCommand_dtypeStr (c : Command) (s : State) :
    (startCommand c s).dtypeStr = some c.dataType := rfl
@[simp] theorem startCommand_addrCsv (c : Command) (s : State) : (startCommand c s).addrCsv = some c.deviceCsv := rfl
@[simp] theorem startCommand_valCsv (c : Command) (s : State) :
    (startCommand c s).valCsv = some (c.valueCsv.getD (ascii ['0'])) := rfl
@[simp] theorem startCommand_kind (c : Command) (s : State) : (startCommand c s).kind = s.kind := rfl
@[simp] theorem startCommand_dt (c : Command) (s : State) : (startCommand c s).dt = s.dt := rfl
@[simp] theorem startCommand_lsis (c : Command) (s : State) : (startCommand c s).lsis = s.lsis := rfl
@[simp] theorem startCommand_tokens (c : Command) (s : State) : (startCommand c s).tokens = some [] := rfl
@[simp] theorem startCommand_ibuf (c : Command) (s : State) : (startCommand c s).ibuf = some [] := rfl
@[simp] theorem startCommand_vbuf (c : Command) (s : State) : (startCommand c s).vbuf = some [] := rfl
@[simp] theorem startCommand_hbuf (c : Command) (s : State) : (startCommand c s).hbuf = some [] := rfl
@[simp] theorem startCommand_frame (c : Command) (s : State) : (startCommand c s).frame = some [] := rfl
@[simp] theorem startCommand_rbuf (c : Command) (s : State) : (startCommand c s).rbuf = s.rbuf := rfl
@[simp] theorem startCommand_num (c : Command) (s : State) : (startCommand c s).num = s.num := rfl
@[simp] theorem startCommand_count (c : Command) (s : State) : (startCommand c s).count = s.count := rfl
@[simp] theorem startCommand_loopI (c : Command) (s : State) : (startCommand c s).loopI = s.loopI := rfl
@[simp] theorem startCommand_loopJ (c : Command) (s : State) : (startCommand c s).loopJ = s.loopJ := rfl
@[simp] theorem startCommand_idx (c : Command) (s : State) : (startCommand c s).idx = s.idx := rfl
@[simp] theorem startCommand_acc (c : Command) (s : State) : (startCommand c s).acc = s.acc := rfl
@[simp] theorem startCommand_result (c : Command) (s : State) : (startCommand c s).result = [] := rfl
@[simp] theorem startCommand_errKind (c : Command) (s : State) : (startCommand c s).errKind = .none := rfl
@[simp] theorem startCommand_errDetail (c : Command) (s : State) : (startCommand c s).errDetail = 0 := rfl
@[simp] theorem startCommand_errInfo (c : Command) (s : State) : (startCommand c s).errInfo = .nothing := rfl
@[simp] theorem startCommand_transport (c : Command) (s : State) : (startCommand c s).transport = s.transport := rfl
@[simp] theorem startCommand_env (c : Command) (s : State) : (startCommand c s).env = s.env := rfl

@[simp] theorem logSend_phase (f : Bytes) (a : SendAnswer) (l : List SendAnswer) (s : State) :
    (logSend f a l s).phase = s.phase := rfl
@[simp] theorem logSend_family (f : Bytes) (a : SendAnswer) (l : List SendAnswer) (s : State) :
    (logSend f a l s).family = s.family := rfl
@[simp] theorem logSend_kindStr (f : Bytes) (a : SendAnswer) (l : List SendAnswer) (s : State) :
    (logSend f a l s).kindStr = s.kindStr := rfl
@[simp] theorem logSend_dtypeStr (f : Bytes) (a : SendAnswer) (l : List SendAnswer) (s : State) :
    (logSend f a l s).dtypeStr = s.dtypeStr := rfl
@[simp] theorem logSend_addrCsv (f : Bytes) (a : SendAnswer) (l : List SendAnswer) (s : State) :
    (logSend f a l s).addrCsv = s.addrCsv := rfl
@[simp] theorem logSend_valCsv (f : Bytes) (a : SendAnswer) (l : List SendAnswer) (s : State) :
    (logSend f a l s).valCsv = s.valCsv := rfl
@[simp] theorem logSend_kind (f : Bytes) (a : SendAnswer) (l : List SendAnswer) (s : State) :
    (logSend f a l s).kind = s.kind := rfl
@[simp] theorem logSend_dt (f : Bytes) (a : SendAnswer) (l : List SendAnswer) (s : State) :
    (logSend f a l s).dt = s.dt := rfl
@[simp] theorem logSend_lsis (f : Bytes) (a : SendAnswer) (l : List SendAnswer) (s : State) :
    (logSend f a l s).lsis = s.lsis := rfl
@[simp] theorem logSend_tokens (f : Bytes) (a : SendAnswer) (l : List SendAnswer) (s : State) :
    (logSend f a l s).tokens = s.tokens := rfl
@[simp] theorem logSend_ibuf (f : Bytes) (a : SendAnswer) (l : List SendAnswer) (s : State) :
    (logSend f a l s).ibuf = s.ibuf := rfl
@[simp] theorem logSend_vbuf (f : Bytes) (a : SendAnswer) (l : List SendAnswer) (s : State) :
    (logSend f a l s).vbuf = s.vbuf := rfl
@[simp] theorem logSend_hbuf (f : Bytes) (a : SendAnswer) (l : List SendAnswer) (s : State) :
    (logSend f a l s).hbuf = s.hbuf := rfl
@[simp] theorem logSend_frame (f : Bytes) (a : SendAnswer) (l : List SendAnswer) (s : State) :
    (logSend f a l s).frame = s.frame := rfl
@[simp] theorem logSend_rbuf (f : Bytes) (a : SendAnswer) (l : List SendAnswer) (s : State) :
    (logSend f a l s).rbuf = s.rbuf := rfl
@[simp] theorem logSend_num (f : Bytes) (a : SendAnswer) (l : List SendAnswer) (s : State) :
    (logSend f a l s).num = s.num := rfl
@[simp] theorem logSend_count (f : Bytes) (a : SendAnswer) (l : List SendAnswer) (s : State) :
    (logSend f a l s).count = s.count := rfl
@[simp] theorem logSend_loopI (f : Bytes) (a : SendAnswer) (l : List SendAnswer) (s : State) :
    (logSend f a l s).loopI = s.loopI := rfl
@[simp] theorem logSend_loopJ (f : Bytes) (a : SendAnswer) (l : List SendAnswer) (s : State) :
    (logSend f a l s).loopJ = s.loopJ := rfl
@[simp] theorem logSend_idx (f : Bytes) (a : SendAnswer) (l : List SendAnswer) (s : State) :
    (logSend f a l s).idx = s.idx := rfl
@[simp] theorem logSend_acc (f : Bytes) (a : SendAnswer) (l : List SendAnswer) (s : State) :
    (logSend f a l s).acc = s.acc := rfl
@[simp] theorem logSend_result (f : Bytes) (a : SendAnswer) (l : List SendAnswer) (s : State) :
    (logSend f a l s).result = s.result := rfl
@[simp] theorem logSend_errKind (f : Bytes) (a : SendAnswer) (l : List SendAnswer) (s : State) :
    (logSend f a l s).errKind = s.errKind := rfl
@[simp] theorem logSend_errDetail (f : Bytes) (a : SendAnswer) (l : List SendAnswer) (s : State) :
    (logSend f a l s).errDetail = s.errDetail := rfl
@[simp] theorem logSend_errInfo (f : Bytes) (a : SendAnswer) (l : List SendAnswer) (s : State) :
    (logSend f a l s).errInfo = s.errInfo := rfl
@[simp] theorem logSend_transport (f : Bytes) (a : SendAnswer) (l : List SendAnswer) (s : State) :
    (logSend f a l s).transport = s.transport := rfl
@[simp] theorem logSend_env (f : Bytes) (a : SendAnswer) (l : List SendAnswer) (s : State) :
    (logSend f a l s).env = { s.env with sendAnswers := l, trace := s.env.trace ++ [.send f a] } := rfl

@[simp] theorem logReceive_phase (a : RecvAnswer) (l : List RecvAnswer) (s : State) :
    (logReceive a l s).phase = s.phase := rfl
@[simp] theorem logReceive_family (a : RecvAnswer) (l : List RecvAnswer) (s : State) :
    (logReceive a l s).family = s.family := rfl
@[simp] theorem logReceive_kindStr (a : RecvAnswer) (l : List RecvAnswer) (s : State) :
    (logReceive a l s).kindStr = s.kindStr := rfl
@[simp] theorem logReceive_dtypeStr (a : RecvAnswer) (l : List RecvAnswer) (s : State) :
    (logReceive a l s).dtypeStr = s.dtypeStr := rfl
@[simp] theorem logReceive_addrCsv (a : RecvAnswer) (l : List RecvAnswer) (s : State) :
    (logReceive a l s).addrCsv = s.addrCsv := rfl
@[simp] theorem logReceive_valCsv (a : RecvAnswer) (l : List RecvAnswer) (s : State) :
    (logReceive a l s).valCsv = s.valCsv := rfl
@[simp] theorem logReceive_kind (a : RecvAnswer) (l : List RecvAnswer) (s : State) :
    (logReceive a l s).kind = s.kind := rfl
@[simp] theorem logReceive_dt (a : RecvAnswer) (l : List RecvAnswer) (s : State) :
    (logReceive a l s).dt = s.dt := rfl
@[simp] theorem logReceive_lsis (a : RecvAnswer) (l : List RecvAnswer) (s : State) :
    (logReceive a l s).lsis = s.lsis := rfl
@[simp] theorem logReceive_tokens (a : RecvAnswer) (l : List RecvAnswer) (s : State) :
    (logReceive a l s).tokens = s.tokens := rfl
@[simp] theorem logReceive_ibuf (a : RecvAnswer) (l : List RecvAnswer) (s : State) :
    (logReceive a l s).ibuf = s.ibuf := rfl
@[simp] theorem logReceive_vbuf (a : RecvAnswer) (l : List RecvAnswer) (s : State) :
    (logReceive a l s).vbuf = s.vbuf := rfl
@[simp] theorem logReceive_hbuf (a : RecvAnswer) (l : List RecvAnswer) (s : State) :
    (logReceive a l s).hbuf = s.hbuf := rfl
@[simp] theorem logReceive_frame (a : RecvAnswer) (l : List RecvAnswer) (s : State) :
    (logReceive a l s).frame = s.frame := rfl
@[simp] theorem logReceive_rbuf (a : RecvAnswer) (l : List RecvAnswer) (s : State) :
    (logReceive a l s).rbuf = s.rbuf := rfl
@[simp] theorem logReceive_num (a : RecvAnswer) (l : List RecvAnswer) (s : State) :
    (logReceive a l s).num = s.num := rfl
@[simp] theorem logReceive_count (a : RecvAnswer) (l : List RecvAnswer) (s : State) :
    (logReceive a l s).count = s.count := rfl
@[simp] theorem logReceive_loopI (a : RecvAnswer) (l : List RecvAnswer) (s : State) :
    (logReceive a l s).loopI = s.loopI := rfl
@[simp] theorem logReceive_loopJ (a : RecvAnswer) (l : List RecvAnswer) (s : State) :
    (logReceive a l s).loopJ = s.loopJ := rfl
@[simp] theorem logReceive_idx (a : RecvAnswer) (l : List RecvAnswer) (s : State) :
    (logReceive a l s).idx = s.idx := rfl
@[simp] theorem logReceive_acc (a : RecvAnswer) (l : List RecvAnswer) (s : State) :
    (logReceive a l s).acc = s.acc := rfl
@[simp] theorem logReceive_result (a : RecvAnswer) (l : List RecvAnswer) (s : State) :
    (logReceive a l s).result = s.result := rfl
@[simp] theorem logReceive_errKind (a : RecvAnswer) (l : List RecvAnswer) (s : State) :
    (logReceive a l s).errKind = s.errKind := rfl
@[simp] theorem logReceive_errDetail (a : RecvAnswer) (l : List RecvAnswer) (s : State) :
    (logReceive a l s).errDetail = s.errDetail := rfl
@[simp] theorem logReceive_errInfo (a : RecvAnswer) (l : List RecvAnswer) (s : State) :
    (logReceive a l s).errInfo = s.errInfo := rfl
@[simp] theorem logReceive_transport (a : RecvAnswer) (l : List RecvAnswer) (s : State) :
    (logReceive a l s).transport = s.transport := rfl
@[simp] theorem logReceive_env (a : RecvAnswer) (l : List RecvAnswer) (s : State) :
    (logReceive a l s).env = { s.env with recvAnswers := l, trace := s.env.trace ++ [.receive Config.rxMaxLen a] } := rfl

@[simp] theorem setParseRegs_phase (n : Byte) (c : Nat) (g : Option LoopRegs) (s : State) :
    (setParseRegs n c g s).phase = s.phase := rfl
@[simp] theorem setParseRegs_family (n : Byte) (c : Nat) (g : Option LoopRegs) (s : State) :
    (setParseRegs n c g s).family = s.family := rfl
@[simp] theorem setParseRegs_kindStr (n : Byte) (c : Nat) (g : Option LoopRegs) (s : State) :
    (setParseRegs n c g s).kindStr = s.kindStr := rfl
@[simp] theorem setParseRegs_dtypeStr (n : Byte) (c : Nat) (g : Option LoopRegs) (s : State) :
    (setParseRegs n c g s).dtypeStr = s.dtypeStr := rfl
@[simp] theorem setParseRegs_addrCsv (n : Byte) (c : Nat) (g : Option LoopRegs) (s : State) :
    (setParseRegs n c g s).addrCsv = s.addrCsv := rfl
@[simp] theorem setParseRegs_valCsv (n : Byte) (c : Nat) (g : Option LoopRegs) (s : State) :
    (setParseRegs n c g s).valCsv = s.valCsv := rfl
@[simp] theorem setParseRegs_kind (n : Byte) (c : Nat) (g : Option LoopRegs) (s : State) :
    (setParseRegs n c g s).kind = s.kind := rfl
@[simp] theorem setParseRegs_dt (n : Byte) (c : Nat) (g : Option LoopRegs) (s : State) :
    (setParseRegs n c g s).dt = s.dt := rfl
@[simp] theorem setParseRegs_lsis (n : Byte) (c : Nat) (g : Option LoopRegs) (s : State) :
    (setParseRegs n c g s).lsis = s.lsis := rfl
@[simp] theorem setParseRegs_tokens (n : Byte) (c : Nat) (g : Option LoopRegs) (s : State) :
    (setParseRegs n c g s).tokens = s.tokens := rfl
@[simp] theorem setParseRegs_ibuf (n : Byte) (c : Nat) (g : Option LoopRegs) (s : State) :
    (setParseRegs n c g s).ibuf = s.ibuf := rfl
@[simp] theorem setParseRegs_vbuf (n : Byte) (c : Nat) (g : Option LoopRegs) (s : State) :
    (setParseRegs n c g s).vbuf = s.vbuf := rfl
@[simp] theorem setParseRegs_hbuf (n : Byte) (c : Nat) (g : Option LoopRegs) (s : State) :
    (setParseRegs n c g s).hbuf = s.hbuf := rfl
@[simp] theorem setParseRegs_frame (n : Byte) (c : Nat) (g : Option LoopRegs) (s : State) :
    (setParseRegs n c g s).frame = s.frame := rfl
@[simp] theorem setParseRegs_rbuf (n : Byte) (c : Nat) (g : Option LoopRegs) (s : State) :
    (setParseRegs n c g s).rbuf = s.rbuf := rfl
@[simp] theorem setParseRegs_num (n : Byte) (c : Nat) (g : Option LoopRegs) (s : State) :
    (setParseRegs n c g s).num = some n := rfl
@[simp] theorem setParseRegs_count (n : Byte) (c : Nat) (g : Option LoopRegs) (s : State) :
    (setParseRegs n c g s).count = some c := rfl
@[simp] theorem setParseRegs_loopI (n : Byte) (c : Nat) (g : Option LoopRegs) (s : State) :
    (setParseRegs n c g s).loopI = g.map (·.i) := rfl
@[simp] theorem setParseRegs_loopJ (n : Byte) (c : Nat) (g : Option LoopRegs) (s : State) :
    (setParseRegs n c g s).loopJ = g.map (·.j) := rfl
@[simp] theorem setParseRegs_idx (n : Byte) (c : Nat) (g : Option LoopRegs) (s : State) :
    (setParseRegs n c g s).idx = g.map (·.idx) := rfl
@[simp] theorem setParseRegs_acc (n : Byte) (c : Nat) (g : Option LoopRegs) (s : State) :
    (setParseRegs n c g s).acc = g.map (·.acc) := rfl
@[simp] theorem setParseRegs_result (n : Byte) (c : Nat) (g : Option LoopRegs) (s : State) :
    (setParseRegs n c g s).result = s.result := rfl
@[simp] theorem setParseRegs_errKind (n : Byte) (c : Nat) (g : Option LoopRegs) (s : State) :
    (setParseRegs n c g s).errKind = s.errKind := rfl
@[simp] theorem setParseRegs_errDetail (n : Byte) (c : Nat) (g : Option LoopRegs) (s : State) :
    (setParseRegs n c g s).errDetail = s.errDetail := rfl
@[simp] theorem setParseRegs_errInfo (n : Byte) (c : Nat) (g : Option LoopRegs) (s : State) :
    (setParseRegs n c g s).errInfo = s.errInfo := rfl
@[simp] theorem setParseRegs_transport (n : Byte) (c : Nat) (g : Option LoopRegs) (s : State) :
    (setParseRegs n c g s).transport = s.transport := rfl
@[simp] theorem setParseRegs_env (n : Byte) (c : Nat) (g : Option LoopRegs) (s : State) :
    (setParseRegs n c g s).env = s.env := rfl

/-- RECV's write of a response touches RBUF, PHASE and, for a write, RESULT. -/
theorem takeResponse_eq (k : Kind) (r : Bytes) (s : State) :
    takeResponse k r s =
      match k with
      | .read => { s with rbuf := some r, phase := .parse }
      | .write => { s with rbuf := some r, result := [], phase := .done } := by
  cases k <;> rfl

@[simp] theorem takeResponse_read (r : Bytes) (s : State) :
    takeResponse .read r s = { s with rbuf := some r, phase := .parse } := rfl

@[simp] theorem takeResponse_write (r : Bytes) (s : State) :
    takeResponse .write r s = { s with rbuf := some r, result := [], phase := .done } := rfl

@[simp] theorem takeResponse_env (k : Kind) (r : Bytes) (s : State) : (takeResponse k r s).env = s.env := by
  cases k <;> rfl

@[simp] theorem takeResponse_transport (k : Kind) (r : Bytes) (s : State) :
    (takeResponse k r s).transport = s.transport := by
  cases k <;> rfl

end Sys2Proof.Machine
end

