-- ==== Sys2Proof/Laws/Ops.lean ====
section
/-! SUPPORT. What the shared operations can do: register reads, buffers, BUILD, the sequencer's steps. -/

namespace Sys2Proof.Machine

/-- A register that holds a value is read. -/
@[simp] theorem readReg_some {α : Type} (v : α) (name : Register) (go : α → Result) :
    readReg (some v) name go = go v := rfl

/-- A register that holds no value faults. -/
@[simp] theorem readReg_none {α : Type} (name : Register) (go : α → Result) :
    readReg none name go = .fault (.noValue name) := rfl

/-- A register read answers next only where the register holds a value. -/
theorem readReg_next {α : Type} {reg : Option α} {name : Register} {go : α → Result} {t : State}
    (h : readReg reg name go = .next t) : ∃ v, reg = some v ∧ go v = .next t := by
  cases reg with
  | none => cases h
  | some v => exact ⟨v, rfl, h⟩

/-- A register read never refuses unless what follows does. -/
theorem readReg_refused {α : Type} {reg : Option α} {name : Register} {go : α → Result} {r : Refusal}
    (h : readReg reg name go = .refused r) : ∃ v, reg = some v ∧ go v = .refused r := by
  cases reg with
  | none => cases h
  | some v => exact ⟨v, rfl, h⟩

@[simp] theorem memAppend_eq (buf v : Bytes) : memAppend buf v = buf ++ v := rfl

/-- The cells of a buffer are its bytes at the addresses from 0. -/
theorem bufferCells_getElem? (buf : Bytes) (k : Nat) :
    (bufferCells buf)[k]? = buf[k]?.map fun b => (k, b) := by
  simp [bufferCells, List.getElem?_zipIdx]
  cases buf[k]? <;> rfl

/-- Every buffer's cells are in canonical form, those of the buffers that an append makes among them. -/
theorem bufferCells_wf (buf : Bytes) : Memory.wf (bufferCells buf) = true := by
  rw [Memory.wf, decide_eq_true_eq, List.pairwise_iff_getElem]
  intro i j hi hj hij
  have cell : ∀ k (h : k < (bufferCells buf).length), ((bufferCells buf)[k]).1 = k := by
    intro k h
    have hk := bufferCells_getElem? buf k
    rw [List.getElem?_eq_getElem h] at hk
    cases hb : buf[k]? with
    | none => simp [hb] at hk
    | some b => simp [hb] at hk; simp [hk]
  rw [cell i hi, cell j hj]
  exact hij

/-- A request buffer that was appended to is still in canonical form. -/
theorem memAppend_wf (buf v : Bytes) : Memory.wf (bufferCells (memAppend buf v)) = true :=
  bufferCells_wf _

theorem blockReset_idem (s : State) : blockReset (blockReset s) = blockReset s := rfl

/-- The frame builder's part of BUILD answers next only with the frame built. -/
theorem finishBuild_next {ibuf : Bytes} {s t : State} (h : finishBuild ibuf s = .next t) :
    ∃ family, s.family = some family ∧
      t = { s with
        lsis := some (familyLsis family)
        hbuf := some (patchHeader (buildHeader (familyLsis family)) ibuf.length)
        frame := some (requestFrame (familyLsis family) ibuf)
        phase := .send } := by
  obtain ⟨family, hf, h⟩ := readReg_next h
  exact ⟨family, hf, by cases h; rfl⟩

/-- The shared part of a form: either the token check raises, or the rest runs on the block of the tokens. -/
theorem buildItems_next {k : Kind} {dt : DataType} {s t : State} {go : Bytes → State → Result}
    (h : buildItems k dt s go = .next t) :
    ∃ csv, s.addrCsv = some csv ∧
      ((∃ e, checkTokens (split csv) = some e ∧
          t = raise e { s with kind := some k, dt := some dt, tokens := some (split csv) }) ∨
        (checkTokens (split csv) = none ∧
          go (instructionBlock k dt (split csv))
            { s with
              kind := some k
              dt := some dt
              tokens := some (split csv)
              ibuf := some (instructionBlock k dt (split csv)) } = .next t)) := by
  obtain ⟨csv, hc, h⟩ := readReg_next h
  refine ⟨csv, hc, ?_⟩
  cases hk : checkTokens (split csv) with
  | some e =>
    simp only [tokenize, hk] at h
    exact .inl ⟨e, rfl, by cases h; rfl⟩
  | none =>
    simp only [tokenize, hk] at h
    exact .inr ⟨rfl, h⟩

/-- Everything a read form can do: raise a token's error, or build the frame of its block. -/
theorem buildRead_next {dt : DataType} {s t : State} (h : buildRead dt s = .next t) :
    ∃ csv, s.addrCsv = some csv ∧
      ((∃ e, checkTokens (split csv) = some e ∧
          t = raise e { s with kind := some .read, dt := some dt, tokens := some (split csv) }) ∨
        (checkTokens (split csv) = none ∧ ∃ family, s.family = some family ∧
          t = { s with
            kind := some .read
            dt := some dt
            tokens := some (split csv)
            ibuf := some (instructionBlock .read dt (split csv))
            lsis := some (familyLsis family)
            hbuf := some (patchHeader (buildHeader (familyLsis family))
              (instructionBlock .read dt (split csv)).length)
            frame := some (requestFrame (familyLsis family) (instructionBlock .read dt (split csv)))
            phase := .send })) := by
  obtain ⟨csv, hc, h | ⟨hn, h⟩⟩ := buildItems_next h
  · exact ⟨csv, hc, .inl h⟩
  · obtain ⟨family, hf, rfl⟩ := finishBuild_next h
    exact ⟨csv, hc, .inr ⟨hn, family, hf, rfl⟩⟩

/-- Everything a write form can do: raise a token's error, raise a value's error, or build the frame of its
block with the value payload. -/
theorem buildWrite_next {dt : DataType} {s t : State} (h : buildWrite dt s = .next t) :
    ∃ csv, s.addrCsv = some csv ∧
      ((∃ e, checkTokens (split csv) = some e ∧
          t = raise e { s with kind := some .write, dt := some dt, tokens := some (split csv) }) ∨
        (checkTokens (split csv) = none ∧ ∃ vals, s.valCsv = some vals ∧
          ((∃ e, (encodeValues dt vals).2 = some e ∧
              t = raise e { s with
                kind := some .write
                dt := some dt
                tokens := some (split csv)
                ibuf := some (instructionBlock .write dt (split csv))
                vbuf := some (encodeValues dt vals).1 }) ∨
            ((encodeValues dt vals).2 = none ∧ ∃ family, s.family = some family ∧
              t = { s with
                kind := some .write
                dt := some dt
                tokens := some (split csv)
                vbuf := some (encodeValues dt vals).1
                ibuf := some (instructionBlock .write dt (split csv) ++ (encodeValues dt vals).1)
                lsis := some (familyLsis family)
                hbuf := some (patchHeader (buildHeader (familyLsis family))
                  (instructionBlock .write dt (split csv) ++ (encodeValues dt vals).1).length)
                frame := some (requestFrame (familyLsis family)
                  (instructionBlock .write dt (split csv) ++ (encodeValues dt vals).1))
                phase := .send })))) := by
  obtain ⟨csv, hc, h | ⟨hn, h⟩⟩ := buildItems_next h
  · exact ⟨csv, hc, .inl h⟩
  · refine ⟨csv, hc, .inr ⟨hn, ?_⟩⟩
    obtain ⟨vals, hv, h⟩ := readReg_next h
    refine ⟨vals, hv, ?_⟩
    cases he : (encodeValues dt vals).2 with
    | some e =>
      simp only [he] at h
      exact .inl ⟨e, rfl, by cases h; rfl⟩
    | none =>
      simp only [he] at h
      obtain ⟨family, hf, rfl⟩ := finishBuild_next h
      exact .inr ⟨rfl, family, hf, rfl⟩

/-- The hex encoders are the transform with the group width of the descriptor table (R36, R139 to R142). -/
theorem encodeByte_eq (tok : Bytes) (pos : Nat) : encodeByte tok pos = encodeHex 2 tok pos := rfl
theorem encodeWord_eq (tok : Bytes) (pos : Nat) : encodeWord tok pos = encodeHex 4 tok pos := rfl
theorem encodeDword_eq (tok : Bytes) (pos : Nat) : encodeDword tok pos = encodeHex 8 tok pos := rfl
theorem encodeLword_eq (tok : Bytes) (pos : Nat) : encodeLword tok pos = encodeHex 16 tok pos := rfl

/-- The Unknown encoder is that of the OPEN parameter (R36, R138). -/
theorem encodeValue_unknown (tok : Bytes) (pos : Nat) :
    encodeValue .unknown tok pos = encodeUnknown Config.gUnknown tok pos := rfl

/-- Every form is the BUILD of its kind and its data type (R190 to R201). -/
theorem exec_eq (i : Instr) (s : State) :
    exec i s =
      match kindOf i with
      | .read => buildRead (dataTypeOf i) s
      | .write => buildWrite (dataTypeOf i) s := by
  cases i <;> rfl

/-- Everything BUILD can do: raise BAD_REQUEST_KIND, or run the form that the strings select. -/
theorem buildStep_next {s t : State} (h : buildStep s = .next t) :
    ∃ kindStr, s.kindStr = some kindStr ∧
      ((kindOfString kindStr = none ∧ t = raise ⟨.badRequestKind, .nothing⟩ s) ∨
        ∃ k dtypeStr, kindOfString kindStr = some k ∧ s.dtypeStr = some dtypeStr ∧
          exec (formOf k (dataTypeOfString dtypeStr)) s = .next t) := by
  obtain ⟨kindStr, hk, h⟩ := readReg_next h
  refine ⟨kindStr, hk, ?_⟩
  cases hs : kindOfString kindStr with
  | none =>
    simp only [hs] at h
    exact .inl ⟨rfl, by cases h; rfl⟩
  | some k =>
    simp only [hs] at h
    obtain ⟨d, hd, h⟩ := readReg_next h
    exact .inr ⟨k, d, rfl, hd, h⟩

/-- Everything SEND can do: wait, go on to RECV, or raise one of two errors. -/
theorem sendStep_next {s t : State} (h : sendStep s = .next t) :
    ∃ frame, s.frame = some frame ∧
      ((s.env.sendAnswers = [] ∧ t = s) ∨
        ∃ later, (s.env.sendAnswers = .ok :: later ∧ t = { logSend frame .ok later s with phase := .recv }) ∨
          (s.env.sendAnswers = .connErr :: later ∧
            t = raise ⟨.connSend, .nothing⟩ (logSend frame .connErr later s)) ∨
          (s.env.sendAnswers = .ioErr :: later ∧
            t = raise ⟨.ioSend, .nothing⟩ (logSend frame .ioErr later s))) := by
  obtain ⟨frame, hf, h⟩ := readReg_next h
  refine ⟨frame, hf, ?_⟩
  split at h <;> rename_i ha <;> cases h <;> simp [ha]

/-- The bound of `receive` is positive (R7). -/
theorem rxMaxLen_pos : 1 ≤ Config.rxMaxLen := Nat.succ_le_succ (Nat.zero_le _)

/-- A draw that is DATA is never longer than the bound (R14). -/
theorem drawReceive_bounded {a : RecvAnswer} {r : Bytes} (h : drawReceive a = .data r) :
    r.length ≤ Config.rxMaxLen := by
  cases a with
  | data d => cases h; simp
  | connErr => cases h
  | ioErr => cases h

/-- An answer within the bound is drawn whole. -/
theorem drawReceive_of_le {r : Bytes} (h : r.length ≤ Config.rxMaxLen) : drawReceive (.data r) = .data r := by
  simp [drawReceive, List.take_of_length_le h]

/-- An answer within the bound leaves nothing in the stream. -/
theorem leaveInStream_of_le {r : Bytes} {later : List RecvAnswer} (h : r.length ≤ Config.rxMaxLen) :
    leaveInStream (.data r) later = later := by
  simp [leaveInStream, h]

/-- Everything RECV can do: wait, take a response of 1 to RX_MAX_LEN bytes, or raise one of two errors. -/
theorem recvStep_next {s t : State} (h : recvStep s = .next t) :
    ∃ k, s.kind = some k ∧
      ((s.env.recvAnswers = [] ∧ t = s) ∨
        ∃ a later, s.env.recvAnswers = a :: later ∧
          ((∃ b r, drawReceive a = .data (b :: r) ∧ (b :: r).length ≤ Config.rxMaxLen ∧
              t = takeResponse k (b :: r) (logReceive (drawReceive a) (leaveInStream a later) s)) ∨
            (drawReceive a = .connErr ∧
              t = raise ⟨.connRecv, .nothing⟩ (logReceive (drawReceive a) (leaveInStream a later) s)) ∨
            ((drawReceive a = .ioErr ∨ drawReceive a = .data []) ∧
              t = raise ⟨.ioRecv, .nothing⟩ (logReceive (drawReceive a) (leaveInStream a later) s)))) := by
  obtain ⟨k, hk, h⟩ := readReg_next h
  refine ⟨k, hk, ?_⟩
  split at h
  · rename_i ha
    exact .inl ⟨ha, by cases h; rfl⟩
  · rename_i a later ha
    cases h
    refine .inr ⟨a, later, ha, ?_⟩
    cases hd : drawReceive a with
    | data d =>
      cases d with
      | nil => exact .inr (.inr ⟨.inr rfl, rfl⟩)
      | cons b r => exact .inl ⟨b, r, rfl, drawReceive_bounded hd, rfl⟩
    | connErr => exact .inr (.inl ⟨rfl, rfl⟩)
    | ioErr => exact .inr (.inr ⟨.inl rfl, rfl⟩)

/-- Everything a reset does to the host interface: one event in SEND with a frame, and nothing elsewhere. -/
theorem abandonCommand_cases (s : State) :
    (∃ frame, s.phase = .send ∧ s.frame = some frame ∧
      abandonCommand s =
        { s.env with
          trace := s.env.trace ++ [.sendAbandoned (frame.take (Config.handedOver s.env.abandonedSends))]
          abandonedSends := s.env.abandonedSends + 1 }) ∨
      ((s.phase ≠ .send ∨ s.frame = none) ∧ abandonCommand s = s.env) := by
  unfold abandonCommand
  split
  · rename_i frame hp hf
    exact .inl ⟨frame, hp, hf, rfl⟩
  · rename_i hn
    refine .inr ⟨?_, rfl⟩
    cases hf : s.frame with
    | none => exact .inr rfl
    | some frame => exact .inl fun hp => hn frame hp hf

/-- Everything the parse can do once the width is read. -/
theorem parseWithWidth_next {r : Bytes} {num : Byte} {s t : State} (h : parseWithWidth r num s = .next t) :
    (num = 0 ∧ t = { s with num := some num, result := [], phase := .done }) ∨
      (num ≠ 0 ∧ ∃ csv, s.addrCsv = some csv ∧ ∃ regs out,
        (parseOuter r num.toNat (deviceCount csv) none [] = (regs, out, true) ∧
            t = { setParseRegs num (deviceCount csv) regs s with result := out, phase := .done }) ∨
          (parseOuter r num.toNat (deviceCount csv) none [] = (regs, out, false) ∧
            t = raise ⟨.protoIndex, indexInfo regs⟩ (setParseRegs num (deviceCount csv) regs s))) := by
  unfold parseWithWidth at h
  split at h
  · rename_i h0
    exact .inl ⟨h0, by cases h; rfl⟩
  · rename_i h0
    obtain ⟨csv, hc, h⟩ := readReg_next h
    refine .inr ⟨h0, csv, hc, ?_⟩
    split at h <;> rename_i regs out hp <;> cases h
    · exact ⟨regs, out, .inl ⟨hp, rfl⟩⟩
    · exact ⟨regs, out, .inr ⟨hp, rfl⟩⟩

/-- Everything PARSE can do: end with no data on a short response, or go on with the width at offset 30. -/
theorem parseResponse_next {s t : State} (h : parseResponse s = .next t) :
    ∃ r, s.rbuf = some r ∧
      ((r.length ≤ 30 ∧ t = { s with result := [], phase := .done }) ∨
        ∃ num, r[30]? = some num ∧ parseWithWidth r num s = .next t) := by
  obtain ⟨r, hr, h⟩ := readReg_next h
  refine ⟨r, hr, ?_⟩
  split at h
  · rename_i hl
    exact .inr ⟨r[30], List.getElem?_eq_getElem hl, h⟩
  · rename_i hl
    exact .inl ⟨by simpa [Config.respWidthOffset] using hl, by cases h; rfl⟩

/-- Everything IDLE can do: wait, or admit the caller's first act. -/
theorem idleStep_cases (s : State) :
    (s.env.caller = [] ∧ idleStep s = s) ∨
      ∃ a later, s.env.caller = a :: later ∧
        idleStep s = callerAct a { s with env := { s.env with caller := later } } := by
  unfold idleStep
  split
  · rename_i h; exact .inl ⟨h, rfl⟩
  · rename_i a later h; exact .inr ⟨a, later, h, rfl⟩

/-- A step is the reset where the line is asserted, and the step of the phase elsewhere. -/
theorem step_reset {s : State} (h : s.env.resetLine = true) : step s = .next (takeReset s) := by
  simp [step, h]

theorem step_phase {s : State} (h : s.env.resetLine = false) :
    step s =
      match s.phase with
      | .idle => .next (idleStep s)
      | .build => buildStep s
      | .send => sendStep s
      | .recv => recvStep s
      | .parse => parseResponse s
      | .done => .next (endCommand s)
      | .fault => .next (endCommand s) := by
  simp only [step, h]
  rfl

end Sys2Proof.Machine
end

