-- ==== Sys2Proof/Laws/Parser.lean ====
section
/-! SUPPORT. What the parser's loops compute: the index, one inner loop, and little-endian numbers
(spec/45_response_parser.md R265 to R267). -/

namespace Sys2Proof.Machine

@[simp] theorem leNat_nil : leNat [] = 0 := rfl

@[simp] theorem leNat_cons (b : Byte) (bs : Bytes) : leNat (b :: bs) = b.toNat + 256 * leNat bs := rfl

theorem leNat_append (a b : Bytes) : leNat (a ++ b) = leNat a + 256 ^ a.length * leNat b := by
  induction a with
  | nil => simp
  | cons x xs ih => simp only [List.cons_append, leNat_cons, ih, List.length_cons, pow_succ]; ring

theorem leNat_lt (bs : Bytes) : leNat bs < 256 ^ bs.length := by
  induction bs with
  | nil => simp
  | cons x xs ih =>
    have := x.isLt
    simp only [leNat_cons, List.length_cons, pow_succ]
    omega

/-- An index of R265 is below |RBUF|, so that the bounds check can only fail below 0. -/
theorem parseIndex_lt (len num i j : Nat) (hi : 1 ≤ i) (hj : 1 ≤ j) : parseIndex len num i j < len := by
  have : 0 ≤ ((i : Int) - 1) * ((num : Int) + 2) := by
    apply mul_nonneg <;> omega
  unfold parseIndex
  omega

/-- A later J has a lower index. -/
theorem parseIndex_sub (len num i j k : Nat) : parseIndex len num i (j + k) = parseIndex len num i j - k := by
  unfold parseIndex
  omega

theorem accumulate_eq (acc : U64) (b : Byte) (num j : Nat) :
    accumulate acc b num j = acc + BitVec.ofNat 64 (b.toNat * 256 ^ (num - j)) := by
  have : 16 ^ (2 * (num - j)) = 256 ^ (num - j) := by rw [pow_mul]; norm_num
  apply BitVec.eq_of_toNat_eq
  simp [accumulate, this]

/-- An inner loop with every index in range adds the little-endian number of the bytes that it reads, the last
of which is at the index of J = NUM (R266, R267). -/
theorem parseInner_inRange (r : Bytes) (num left : Nat) (regs : LoopRegs) (hl : left ≤ num) (hi : 1 ≤ regs.i)
    (hin : 0 ≤ parseIndex r.length num regs.i num) :
    (parseInner r num left regs).2 = true ∧ (parseInner r num left regs).1.i = regs.i ∧
      (parseInner r num left regs).1.acc =
        regs.acc + BitVec.ofNat 64 (leNat ((r.drop (parseIndex r.length num regs.i num).toNat).take left)) := by
  induction left generalizing regs with
  | zero => simp [parseInner]
  | succ left ih =>
    have hidx : parseIndex r.length num regs.i (num - left) = parseIndex r.length num regs.i num + left := by
      have := parseIndex_sub r.length num regs.i (num - left) left
      rw [show num - left + left = num by omega] at this
      omega
    have hlt := parseIndex_lt r.length num regs.i (num - left) hi (by omega)
    have inside : 0 ≤ parseIndex r.length num regs.i (num - left) ∧
        (parseIndex r.length num regs.i (num - left)).toNat < r.length := by omega
    have hnat : (parseIndex r.length num regs.i (num - left)).toNat =
        (parseIndex r.length num regs.i num).toNat + left := by omega
    simp only [parseInner, dif_pos inside]
    obtain ⟨h1, h2, h3⟩ := ih { regs with
      j := num - left
      idx := parseIndex r.length num regs.i (num - left)
      acc := accumulate regs.acc
        (memRead r (parseIndex r.length num regs.i (num - left)).toNat inside.2) num (num - left) }
      (by omega) hi hin
    refine ⟨h1, h2, ?_⟩
    rw [h3, accumulate_eq, show num - (num - left) = left by omega]
    have hb : (parseIndex r.length num regs.i num).toNat + left < r.length := by omega
    have htake : (r.drop (parseIndex r.length num regs.i num).toNat).take (left + 1) =
        (r.drop (parseIndex r.length num regs.i num).toNat).take left ++
          [r[(parseIndex r.length num regs.i num).toNat + left]] := by
      rw [List.take_add_one, List.getElem?_drop, List.getElem?_eq_getElem hb]
      rfl
    have hlen : ((r.drop (parseIndex r.length num regs.i num).toNat).take left).length = left := by
      simp; omega
    rw [htake, leNat_append, hlen]
    simp only [memRead, hnat, leNat_cons, leNat_nil, Nat.mul_zero, Nat.add_zero]
    rw [Nat.mul_comm (256 ^ left), BitVec.ofNat_add, BitVec.add_assoc,
      BitVec.add_comm (BitVec.ofNat 64 (leNat _))]

/-- An inner loop whose index at J = NUM is below 0 raises, at the first J whose index is (R265, R268). -/
theorem parseInner_outOfRange (r : Bytes) (num left : Nat) (regs : LoopRegs) (hl : 1 ≤ left) (hle : left ≤ num)
    (hi : 1 ≤ regs.i) (hout : parseIndex r.length num regs.i num < 0) :
    (parseInner r num left regs).2 = false ∧ (parseInner r num left regs).1.i = regs.i ∧
      (parseInner r num left regs).1.idx =
        parseIndex r.length num regs.i (parseInner r num left regs).1.j ∧
      (parseInner r num left regs).1.idx < 0 ∧
      num - left < (parseInner r num left regs).1.j ∧
      ∀ j, num - left < j → j < (parseInner r num left regs).1.j → 0 ≤ parseIndex r.length num regs.i j := by
  induction left generalizing regs with
  | zero => omega
  | succ left ih =>
    have hlt := parseIndex_lt r.length num regs.i (num - left) hi (by omega)
    by_cases inside : 0 ≤ parseIndex r.length num regs.i (num - left) ∧
        (parseIndex r.length num regs.i (num - left)).toNat < r.length
    · have hleft : 1 ≤ left := by
        rcases Nat.eq_zero_or_pos left with rfl | h
        · simp only [Nat.sub_zero] at inside; omega
        · exact h
      simp only [parseInner, dif_pos inside]
      obtain ⟨h1, h2, h3, h4, h5, h6⟩ := ih { regs with
        j := num - left
        idx := parseIndex r.length num regs.i (num - left)
        acc := accumulate regs.acc
          (memRead r (parseIndex r.length num regs.i (num - left)).toNat inside.2) num (num - left) }
        hleft (by omega) hi hout
      refine ⟨h1, h2, h3, h4, by omega, ?_⟩
      intro j hj1 hj2
      rcases Nat.lt_or_ge (num - left) j with h | h
      · exact h6 j h hj2
      · rw [show j = num - left by omega]; exact inside.1
    · simp only [parseInner, dif_neg inside]
      refine ⟨trivial, trivial, trivial, by omega, by omega, ?_⟩
      intro j hj1 hj2
      omega

end Sys2Proof.Machine
end

