-- ==== Sys2Proof/Laws/PerInstr.lean ====
section
/-! SUPPORT. Facts about every form as syntax, one lemma per constructor of Instr. -/

namespace Sys2Proof.Laws

/-- A form is fixed by its kind and its data type (R98), its command strings select it (R103, R180, R181), and
its head bytes are the opcode and the type code, both little-endian (R93). -/
def FormCodec.Statement (i : Instr) : Prop :=
  Machine.formOf (Machine.kindOf i) (Machine.dataTypeOf i) = i ∧
    decodeDescriptor (kindString i) (dataTypeString i) = some i ∧
    encodeHead i = Machine.le16 (Machine.opcode (Machine.kindOf i)) ++
      Machine.le16 (Machine.typeCode (Machine.dataTypeOf i))

theorem FormCodec.readBit : FormCodec.Statement .readBit := by unfold FormCodec.Statement; decide

theorem FormCodec.readByte : FormCodec.Statement .readByte := by unfold FormCodec.Statement; decide

theorem FormCodec.readWord : FormCodec.Statement .readWord := by unfold FormCodec.Statement; decide

theorem FormCodec.readDword : FormCodec.Statement .readDword := by unfold FormCodec.Statement; decide

theorem FormCodec.readLword : FormCodec.Statement .readLword := by unfold FormCodec.Statement; decide

theorem FormCodec.readUnknown : FormCodec.Statement .readUnknown := by unfold FormCodec.Statement; decide

theorem FormCodec.writeBit : FormCodec.Statement .writeBit := by unfold FormCodec.Statement; decide

theorem FormCodec.writeByte : FormCodec.Statement .writeByte := by unfold FormCodec.Statement; decide

theorem FormCodec.writeWord : FormCodec.Statement .writeWord := by unfold FormCodec.Statement; decide

theorem FormCodec.writeDword : FormCodec.Statement .writeDword := by unfold FormCodec.Statement; decide

theorem FormCodec.writeLword : FormCodec.Statement .writeLword := by unfold FormCodec.Statement; decide

theorem FormCodec.writeUnknown : FormCodec.Statement .writeUnknown := by unfold FormCodec.Statement; decide

end Sys2Proof.Laws
end

