-- ==== Sys2Proof/Tests/Slice0.lean ====
section
/-! SUPPORT. The model's own tests: expected values are the spec's vectors (spec/95_test_vectors.md) and the
examples of its rules. -/

namespace Sys2Proof.Tests

set_option Elab.async false

open Machine

/-- The state of a command that has just been started with these arguments (R291). -/
def started (family kind dtype addr vals : Bytes) : State :=
  startCommand ⟨family, kind, dtype, addr, some vals⟩ State.reset

/-- The state after a step, where there is one. -/
def after (o : Host.Outcome State Fault Refusal) : Option State :=
  match o with
  | .next s => some s
  | .fault _ => none
  | .refused _ => none

/-- "XGT". -/
def xgt : Bytes := ascii ['X', 'G', 'T']

/-- A family that selects the GLOFA header. -/
def glofa : Bytes := ascii ['G', 'L', 'O', 'F', 'A']

/-- A response of 30 zero bytes and then these (the Z30 of spec/95_test_vectors.md). -/
def z30 (rest : Bytes) : Bytes := List.replicate 30 0x00 ++ rest

/-- A state in PARSE with this response and this device list. -/
def parsing (r addr : Bytes) : State :=
  { State.reset with phase := .parse, rbuf := some r, addrCsv := some addr }

/-- RESULT and ERR_INFO after PARSE. -/
def parsed (r addr : Bytes) : Option (List U64 × ErrInfo) :=
  (after (parseResponse (parsing r addr))).map fun t => (t.result, t.errInfo)

-- Decoding: every form's example block, written out from R190 to R201, decodes to the form.

/-- READ.BIT (R190). -/
theorem test_decode_readBit :
    (decode [0x54, 0x00, 0x00, 0x00, 0x00, 0x00, 0x01, 0x00, 0x08, 0x00, 0x25, 0x4D, 0x58, 0x30, 0x30, 0x35, 0x31,
      0x30]).toOption =
      some ⟨.readBit, [⟨0x4D, ascii ['0', '0', '5', '1', '0']⟩], []⟩ := by
  decide +kernel

/-- READ.BYTE (R191). -/
theorem test_decode_readByte :
    (decode [0x54, 0x00, 0x01, 0x00, 0x00, 0x00, 0x01, 0x00, 0x07, 0x00, 0x25, 0x4D, 0x42, 0x30, 0x30, 0x31, 0x30]).toOption =
      some ⟨.readByte, [⟨0x4D, ascii ['0', '0', '1', '0']⟩], []⟩ := by
  decide +kernel

/-- READ.WORD (R192). -/
theorem test_decode_readWord :
    (decode [0x54, 0x00, 0x02, 0x00, 0x00, 0x00, 0x02, 0x00, 0x08, 0x00, 0x25, 0x44, 0x57, 0x30, 0x30, 0x30, 0x31,
      0x30, 0x08, 0x00, 0x25, 0x44, 0x57, 0x30, 0x30, 0x30, 0x31, 0x32]).toOption =
      some ⟨.readWord, [⟨0x44, ascii ['0', '0', '0', '1', '0']⟩, ⟨0x44, ascii ['0', '0', '0', '1', '2']⟩], []⟩ := by
  decide +kernel

/-- READ.DWORD (R193). -/
theorem test_decode_readDword :
    (decode [0x54, 0x00, 0x03, 0x00, 0x00, 0x00, 0x01, 0x00, 0x06, 0x00, 0x25, 0x44, 0x44, 0x31, 0x30, 0x30]).toOption =
      some ⟨.readDword, [⟨0x44, ascii ['1', '0', '0']⟩], []⟩ := by
  decide +kernel

/-- READ.LWORD (R194). -/
theorem test_decode_readLword :
    (decode [0x54, 0x00, 0x04, 0x00, 0x00, 0x00, 0x01, 0x00, 0x06, 0x00, 0x25, 0x44, 0x4C, 0x32, 0x30, 0x30]).toOption =
      some ⟨.readLword, [⟨0x44, ascii ['2', '0', '0']⟩], []⟩ := by
  decide +kernel

/-- READ.UNKNOWN (R195). -/
theorem test_decode_readUnknown :
    (decode [0x54, 0x00, 0x14, 0x00, 0x00, 0x00, 0x01, 0x00, 0x04, 0x00, 0x25, 0x4D, 0x42, 0x31]).toOption =
      some ⟨.readUnknown, [⟨0x4D, ascii ['1']⟩], []⟩ := by
  decide +kernel

/-- WRITE.BIT (R196). -/
theorem test_decode_writeBit :
    (decode [0x58, 0x00, 0x00, 0x00, 0x00, 0x00, 0x01, 0x00, 0x08, 0x00, 0x25, 0x4D, 0x58, 0x30, 0x30, 0x35, 0x31,
      0x30, 0x01, 0x00, 0x01]).toOption =
      some ⟨.writeBit, [⟨0x4D, ascii ['0', '0', '5', '1', '0']⟩], [0x01, 0x00, 0x01]⟩ := by
  decide +kernel

/-- WRITE.BYTE (R197). -/
theorem test_decode_writeByte :
    (decode [0x58, 0x00, 0x01, 0x00, 0x00, 0x00, 0x01, 0x00, 0x07, 0x00, 0x25, 0x4D, 0x42, 0x30, 0x30, 0x31, 0x30,
      0x20, 0x00]).toOption =
      some ⟨.writeByte, [⟨0x4D, ascii ['0', '0', '1', '0']⟩], [0x20, 0x00]⟩ := by
  decide +kernel

/-- WRITE.WORD (R198). -/
theorem test_decode_writeWord :
    (decode [0x58, 0x00, 0x02, 0x00, 0x00, 0x00, 0x02, 0x00, 0x04, 0x00, 0x25, 0x44, 0x57, 0x31, 0x04, 0x00, 0x25,
      0x44, 0x57, 0x32, 0x20, 0x00, 0x07, 0x00]).toOption =
      some ⟨.writeWord, [⟨0x44, ascii ['1']⟩, ⟨0x44, ascii ['2']⟩], [0x20, 0x00, 0x07, 0x00]⟩ := by
  decide +kernel

/-- WRITE.DWORD (R199). -/
theorem test_decode_writeDword :
    (decode [0x58, 0x00, 0x03, 0x00, 0x00, 0x00, 0x01, 0x00, 0x06, 0x00, 0x25, 0x44, 0x44, 0x31, 0x30, 0x30, 0x20,
      0x00, 0x64, 0x00, 0x00, 0x00]).toOption =
      some ⟨.writeDword, [⟨0x44, ascii ['1', '0', '0']⟩], [0x20, 0x00, 0x64, 0x00, 0x00, 0x00]⟩ := by
  decide +kernel

/-- WRITE.LWORD (R200). -/
theorem test_decode_writeLword :
    (decode [0x58, 0x00, 0x04, 0x00, 0x00, 0x00, 0x01, 0x00, 0x06, 0x00, 0x25, 0x44, 0x4C, 0x32, 0x30, 0x30, 0x20,
      0x00, 0xF0, 0xDE, 0xBC, 0x9A, 0x78, 0x56, 0x34, 0x12]).toOption =
      some ⟨.writeLword, [⟨0x44, ascii ['2', '0', '0']⟩], [0x20, 0x00, 0xF0, 0xDE, 0xBC, 0x9A, 0x78, 0x56, 0x34, 0x12]⟩ := by
  decide +kernel

/-- WRITE.UNKNOWN (R201). -/
theorem test_decode_writeUnknown :
    (decode [0x58, 0x00, 0x14, 0x00, 0x00, 0x00, 0x01, 0x00, 0x04, 0x00, 0x25, 0x4D, 0x42, 0x31]).toOption =
      some ⟨.writeUnknown, [⟨0x4D, ascii ['1']⟩], []⟩ := by
  decide +kernel

-- One step from BUILD: the example of each form's rule gives its instruction block.

/-- READ.BIT (R190). -/
theorem test_exec_readBit :
    (after (step (started xgt (ascii ['r', 'e', 'a', 'd']) (ascii ['b', 'i', 't'])
      (ascii ['M', '0', '0', '5', '1', '0']) (ascii ['0'])))).bind (·.ibuf) =
      some [0x54, 0x00, 0x00, 0x00, 0x00, 0x00, 0x01, 0x00, 0x08, 0x00, 0x25, 0x4D, 0x58, 0x30, 0x30, 0x35, 0x31,
      0x30] := by
  decide +kernel

/-- READ.BYTE (R191). -/
theorem test_exec_readByte :
    (after (step (started xgt (ascii ['r', 'e', 'a', 'd']) (ascii ['b', 'y', 't', 'e'])
      (ascii ['M', '0', '0', '1', '0']) (ascii ['0'])))).bind (·.ibuf) =
      some [0x54, 0x00, 0x01, 0x00, 0x00, 0x00, 0x01, 0x00, 0x07, 0x00, 0x25, 0x4D, 0x42, 0x30, 0x30, 0x31, 0x30] := by
  decide +kernel

/-- READ.WORD (R192). -/
theorem test_exec_readWord :
    (after (step (started xgt (ascii ['r', 'e', 'a', 'd']) (ascii ['w', 'o', 'r', 'd'])
      (ascii ['D', '0', '0', '0', '1', '0', ',', 'D', '0', '0', '0', '1', '2']) (ascii ['0'])))).bind (·.ibuf) =
      some [0x54, 0x00, 0x02, 0x00, 0x00, 0x00, 0x02, 0x00, 0x08, 0x00, 0x25, 0x44, 0x57, 0x30, 0x30, 0x30, 0x31,
      0x30, 0x08, 0x00, 0x25, 0x44, 0x57, 0x30, 0x30, 0x30, 0x31, 0x32] := by
  decide +kernel

/-- READ.DWORD (R193). -/
theorem test_exec_readDword :
    (after (step (started xgt (ascii ['r', 'e', 'a', 'd']) (ascii ['d', 'w', 'o', 'r', 'd'])
      (ascii ['D', '1', '0', '0']) (ascii ['0'])))).bind (·.ibuf) =
      some [0x54, 0x00, 0x03, 0x00, 0x00, 0x00, 0x01, 0x00, 0x06, 0x00, 0x25, 0x44, 0x44, 0x31, 0x30, 0x30] := by
  decide +kernel

/-- READ.LWORD (R194). -/
theorem test_exec_readLword :
    (after (step (started xgt (ascii ['r', 'e', 'a', 'd']) (ascii ['l', 'w', 'o', 'r', 'd'])
      (ascii ['D', '2', '0', '0']) (ascii ['0'])))).bind (·.ibuf) =
      some [0x54, 0x00, 0x04, 0x00, 0x00, 0x00, 0x01, 0x00, 0x06, 0x00, 0x25, 0x44, 0x4C, 0x32, 0x30, 0x30] := by
  decide +kernel

/-- READ.UNKNOWN (R195). -/
theorem test_exec_readUnknown :
    (after (step (started xgt (ascii ['r', 'e', 'a', 'd']) (ascii ['f', 'l', 'o', 'a', 't'])
      (ascii ['M', '1']) (ascii ['0'])))).bind (·.ibuf) =
      some [0x54, 0x00, 0x14, 0x00, 0x00, 0x00, 0x01, 0x00, 0x04, 0x00, 0x25, 0x4D, 0x42, 0x31] := by
  decide +kernel

/-- WRITE.BIT (R196). -/
theorem test_exec_writeBit :
    (after (step (started xgt (ascii ['w', 'r', 'i', 't', 'e']) (ascii ['b', 'i', 't'])
      (ascii ['M', '0', '0', '5', '1', '0']) (ascii ['1'])))).bind (·.ibuf) =
      some [0x58, 0x00, 0x00, 0x00, 0x00, 0x00, 0x01, 0x00, 0x08, 0x00, 0x25, 0x4D, 0x58, 0x30, 0x30, 0x35, 0x31,
      0x30, 0x01, 0x00, 0x01] := by
  decide +kernel

/-- WRITE.BYTE (R197). -/
theorem test_exec_writeByte :
    (after (step (started xgt (ascii ['w', 'r', 'i', 't', 'e']) (ascii ['b', 'y', 't', 'e'])
      (ascii ['M', '0', '0', '1', '0']) (ascii ['1', '0', '0'])))).bind (·.ibuf) =
      some [0x58, 0x00, 0x01, 0x00, 0x00, 0x00, 0x01, 0x00, 0x07, 0x00, 0x25, 0x4D, 0x42, 0x30, 0x30, 0x31, 0x30,
      0x20, 0x00] := by
  decide +kernel

/-- WRITE.WORD (R198). -/
theorem test_exec_writeWord :
    (after (step (started xgt (ascii ['w', 'r', 'i', 't', 'e']) (ascii ['w', 'o', 'r', 'd'])
      (ascii ['D', '1', ',', 'D', '2']) (ascii ['7', ','])))).bind (·.ibuf) =
      some [0x58, 0x00, 0x02, 0x00, 0x00, 0x00, 0x02, 0x00, 0x04, 0x00, 0x25, 0x44, 0x57, 0x31, 0x04, 0x00, 0x25,
      0x44, 0x57, 0x32, 0x20, 0x00, 0x07, 0x00] := by
  decide +kernel

/-- WRITE.DWORD (R199). -/
theorem test_exec_writeDword :
    (after (step (started xgt (ascii ['w', 'r', 'i', 't', 'e']) (ascii ['d', 'w', 'o', 'r', 'd'])
      (ascii ['D', '1', '0', '0']) (ascii ['1', '0', '0'])))).bind (·.ibuf) =
      some [0x58, 0x00, 0x03, 0x00, 0x00, 0x00, 0x01, 0x00, 0x06, 0x00, 0x25, 0x44, 0x44, 0x31, 0x30, 0x30, 0x20,
      0x00, 0x64, 0x00, 0x00, 0x00] := by
  decide +kernel

/-- WRITE.LWORD (R200). -/
theorem test_exec_writeLword :
    (after (step (started xgt (ascii ['w', 'r', 'i', 't', 'e']) (ascii ['l', 'w', 'o', 'r', 'd'])
      (ascii ['D', '2', '0', '0']) (ascii ['1', '3', '1', '1', '7', '6', '8', '4', '6', '7', '4', '6', '3', '7', '9', '0', '3', '2', '0'])))).bind (·.ibuf) =
      some [0x58, 0x00, 0x04, 0x00, 0x00, 0x00, 0x01, 0x00, 0x06, 0x00, 0x25, 0x44, 0x4C, 0x32, 0x30, 0x30, 0x20,
      0x00, 0xF0, 0xDE, 0xBC, 0x9A, 0x78, 0x56, 0x34, 0x12] := by
  decide +kernel

/-- WRITE.UNKNOWN (R201). -/
theorem test_exec_writeUnknown :
    (after (step (started xgt (ascii ['w', 'r', 'i', 't', 'e']) (ascii ['f', 'l', 'o', 'a', 't'])
      (ascii ['M', '1']) ([])))).bind (·.ibuf) =
      some [0x58, 0x00, 0x14, 0x00, 0x00, 0x00, 0x01, 0x00, 0x04, 0x00, 0x25, 0x4D, 0x42, 0x31] := by
  decide +kernel

-- Frames and errors (spec/95_test_vectors.md Part 3, one step each)

/-- P1: the 38-byte frame. -/
theorem test_frame_p1 :
    (after (step (started xgt (ascii ['r', 'e', 'a', 'd']) (ascii ['b', 'i', 't'])
      (ascii ['M', '0', '0', '5', '1', '0']) (ascii ['0'])))).bind (·.frame) =
      some [0x4C, 0x53, 0x49, 0x53, 0x2D, 0x58, 0x47, 0x54, 0x00, 0x00, 0x00, 0x00, 0x00, 0x33, 0x00, 0x00,
        0x12, 0x00, 0x00, 0x00, 0x54, 0x00, 0x00, 0x00, 0x00, 0x00, 0x01, 0x00, 0x08, 0x00, 0x25, 0x4D,
        0x58, 0x30, 0x30, 0x35, 0x31, 0x30] := by
  decide +kernel

/-- P3: the GLOFA header and the trailer. -/
theorem test_frame_p3_header :
    ((after (step (started glofa (ascii ['r', 'e', 'a', 'd']) (ascii ['w', 'o', 'r', 'd'])
      (ascii ['D', '0', '0', '0', '1', '0', ',', 'D', '0', '0', '0', '1', '2']) []))).bind (·.frame)).map
        (·.take 20) =
      some [0x4C, 0x47, 0x49, 0x53, 0x2D, 0x47, 0x4C, 0x4F, 0x46, 0x41, 0x00, 0x00, 0x00, 0x33, 0x00, 0x00,
        0x1C, 0x00, 0x00, 0x00] := by
  decide +kernel

/-- P6: "M00510," fails at token 1 with EMPTY_DEVICE_TOKEN; IBUF and FRAME are not formed. -/
theorem test_empty_token_p6 :
    (after (step (started xgt (ascii ['r', 'e', 'a', 'd']) (ascii ['b', 'i', 't'])
      (ascii ['M', '0', '0', '5', '1', '0', ',']) []))).map
        (fun t => ((t.phase, t.errKind, t.errDetail, t.errInfo), (t.ibuf, t.frame))) =
      some ((.fault, .valueError, 0x32, .position 1), (some [], some [])) := by
  decide +kernel

/-- Section 2.3: "write", "word", "M1", "1,x" raises BAD_VALUE_TOKEN at position 1. -/
theorem test_bad_value :
    (after (step (started xgt (ascii ['w', 'r', 'i', 't', 'e']) (ascii ['w', 'o', 'r', 'd'])
      (ascii ['M', '1']) (ascii ['1', ',', 'x'])))).map (fun t => (t.phase, t.errDetail, t.errInfo)) =
      some (.fault, 0x34, .position 1) := by
  decide +kernel

/-- Section 2.3: kind "READ" raises BAD_REQUEST_KIND. -/
theorem test_bad_kind :
    (after (step (started xgt (ascii ['R', 'E', 'A', 'D']) (ascii ['b', 'i', 't']) (ascii ['M', '1']) []))).map
        (fun t => (t.phase, t.errKind, t.errDetail)) =
      some (.fault, .valueError, 0x31) := by
  decide +kernel

/-- Section 2.3: 256 device tokens wrap the count byte to 0 (R184). -/
theorem test_count_wraps :
    countField (List.replicate 256 (ascii ['M', '1'])) = [0x00, 0x00] ∧
    countField (List.replicate 255 (ascii ['M', '1'])) = [0xFF, 0x00] := by
  decide +kernel

/-- Section 2.3: a suffix of 253 digits wraps the item length byte to 0 (R183). -/
theorem test_item_length_wraps :
    (item .bit (0x4D :: List.replicate 253 0x31)).take 3 = [0x00, 0x00, 0x25] ∧
    (item .bit (0x4D :: List.replicate 252 0x31)).take 3 = [0xFF, 0x00, 0x25] := by
  decide +kernel

-- The value codec (section 2.1)

/-- The nibble-reorder transform on the source's two examples (V-S11, V-S12). -/
theorem test_reorder :
    reorder 2 (ascii ['6', '4']) = ascii ['2', '0', '0', '0'] ∧
    reorder 4 (ascii ['1', '2', '3', '4']) = ascii ['2', '0', '0', '0', '3', '4', '1', '2'] := by
  decide +kernel

/-- BYTE "65536" and "1193046" drop the top byte. -/
theorem test_byte_drops_top :
    hexBlock 2 65536 = [0x20, 0x00, 0x00, 0x00] ∧ hexBlock 2 1193046 = [0x20, 0x00, 0x56, 0x34] := by
  decide +kernel

/-- WORD "4294967296" is wider than the type and is not checked. -/
theorem test_word_wide :
    hexBlock 4 4294967296 = [0x20, 0x00, 0x00, 0x00, 0x00, 0x00, 0x01, 0x00] := by
  decide +kernel

/-- DWORD "100" is 6 bytes (C1). -/
theorem test_dword_six_bytes : hexBlock 8 100 = [0x20, 0x00, 0x64, 0x00, 0x00, 0x00] := by
  decide +kernel

/-- UNKNOWN "4660" under G_UNKNOWN = 8, and "x" under FAULT. -/
theorem test_unknown_instances :
    (encodeUnknown .width8 (ascii ['4', '6', '6', '0']) 0).toOption = some [0x20, 0x00, 0x34, 0x12, 0x00, 0x00] ∧
    (encodeUnknown .fault (ascii ['x']) 0).toOption = none := by
  decide +kernel

/-- 2^64 − 1 parses and 2^64 does not (R133). -/
theorem test_value_max :
    (parseU64 (ascii ['1', '8', '4', '4', '6', '7', '4', '4', '0', '7', '3', '7', '0', '9', '5', '5', '1', '6', '1',
      '5']) 0).toOption = some 0xFFFFFFFFFFFFFFFF ∧
    (parseU64 (ascii ['1', '8', '4', '4', '6', '7', '4', '4', '0', '7', '3', '7', '0', '9', '5', '5', '1', '6', '1',
      '6']) 0).toOption = none := by
  decide +kernel

-- The response parser (section 2.5)

/-- V-P2: two words. -/
theorem test_parse_two_words :
    parsed (z30 [0x02, 0x00, 0x34, 0x12, 0x02, 0x00, 0x78, 0x56]) (ascii ['D', '1', ',', 'D', '2']) =
      some ([0x1234, 0x5678], .nothing) := by
  decide +kernel

/-- The NUM byte itself is a value byte: i = 2 reads R[27], i = 1 reads R[30]. -/
theorem test_parse_overlap :
    parsed (z30 [0x01]) (ascii ['M', '1', ',', 'M', '2']) = some ([0, 1], .nothing) := by
  decide +kernel

/-- NUM = 9: the ninth byte has the weight 2^64 and wraps to 0 (D11). -/
theorem test_parse_nine_bytes :
    parsed (z30 [0x09, 0x01, 0x02, 0x03, 0x04, 0x05, 0x06, 0x07, 0x08, 0x09]) (ascii ['D', '1']) =
      some ([0x0807060504030201], .nothing) := by
  decide +kernel

/-- P4: NUM = 40 on 31 bytes fails at (1, 32, −1). -/
theorem test_parse_index_error :
    parsed (z30 [0x28]) (ascii ['M', '1']) = some ([], .index 1 32 (-1)) := by
  decide +kernel

/-- Section 2.6: the same response with two devices fails at (2, 1, −12). -/
theorem test_parse_first_pass :
    parsed (z30 [0x28]) (ascii ['D', '1', ',', 'D', '2']) = some ([], .index 2 1 (-12)) := by
  decide +kernel

-- The sequencer: one step each

/-- P8: a receive timeout raises IO_RECV, and RBUF is not written. -/
theorem test_recv_timeout :
    (after (step { State.reset with
      phase := .recv, kind := some .read, addrCsv := some [],
      env := { State.reset.env with recvAnswers := [.ioErr] } })).map
        (fun t => (t.phase, t.errKind, t.errDetail, t.rbuf)) =
      some (.fault, .ioError, 0x12, none) := by
  decide +kernel

/-- A write's response is received and the command is done, with an empty RESULT (R298). -/
theorem test_write_completion :
    (after (step { State.reset with
      phase := .recv, kind := some .write, addrCsv := some [],
      env := { State.reset.env with recvAnswers := [.data [0xFF]] } })).map
        (fun t => (t.phase, t.result, t.rbuf)) =
      some (.done, [], some [0xFF]) := by
  have drawn : drawReceive (.data [0xFF]) = .data [0xFF] := drawReceive_of_le rxMaxLen_pos
  change (after (.next (answerReceive .write (drawReceive (.data [0xFF])) _))).map _ = _
  rw [drawn]
  rfl

/-- Of a response one byte longer than RX_MAX_LEN one `receive` takes RX_MAX_LEN bytes, and the last byte stays in
the stream (R14, R41, D18). -/
theorem test_receive_takes_the_bound :
    drawReceive (.data (List.replicate Config.rxMaxLen 0x00 ++ [0xFF])) =
      .data (List.replicate Config.rxMaxLen 0x00) ∧
    leaveInStream (.data (List.replicate Config.rxMaxLen 0x00 ++ [0xFF])) [] = [.data [0xFF]] := by
  simp [drawReceive, leaveInStream]

/-- A reset in SEND leaves the event of a frame that was handed over up to a free number of bytes (R351). -/
theorem test_reset_in_send :
    (after (step { State.reset with
      phase := .send, frame := some [0x4C, 0x53],
      env := { State.reset.env with resetLine := true } })).map (fun t => (t.phase, t.env.trace)) =
      some (.idle, [.sendAbandoned ([0x4C, 0x53].take (Config.handedOver 0))]) := rfl

/-- An omitted value list is "0" (R103, R291). -/
theorem test_start_default :
    (after (step { State.reset with
      env := { State.reset.env with caller := [.start ⟨[], [], [], [], none⟩] } })).bind (·.valCsv) =
      some [0x30] := by
  decide +kernel

-- WellFormed smoke: for each check, a term that fails it is refused

theorem test_wf_accepts : (Device.wf ⟨0x4D, [0x31]⟩ = true) ∧ (Block.wf ⟨.readBit, [⟨0x4D, [0x31]⟩], []⟩ = true) := by
  decide +kernel

theorem test_wf_refuses_lower_case_class : Device.wf ⟨0x6D, [0x31]⟩ = false := by decide +kernel

theorem test_wf_refuses_empty_suffix : Device.wf ⟨0x4D, []⟩ = false := by decide +kernel

theorem test_wf_refuses_letter_in_suffix : Device.wf ⟨0x4D, [0x31, 0x41]⟩ = false := by decide +kernel

theorem test_wf_refuses_long_suffix :
    Device.wf ⟨0x4D, List.replicate 253 0x31⟩ = false ∧ Device.wf ⟨0x4D, List.replicate 252 0x31⟩ = true := by
  decide +kernel

theorem test_wf_refuses_256_devices :
    Block.wf ⟨.readBit, List.replicate 256 ⟨0x4D, [0x31]⟩, []⟩ = false ∧
    Block.wf ⟨.readBit, List.replicate 255 ⟨0x4D, [0x31]⟩, []⟩ = true := by
  decide +kernel

theorem test_wf_refuses_ill_formed_device : Block.wf ⟨.writeBit, [⟨0x4D, []⟩], []⟩ = false := by decide +kernel

theorem test_wf_refuses_payload_of_a_read : Block.wf ⟨.readBit, [], [0x01]⟩ = false := by decide +kernel

/-- The decoder rejects by name: an opcode, a type code, a reserved byte, a pad, a letter, trailing bytes. -/
theorem test_decode_rejects :
    decode [0x55, 0x00, 0x00, 0x00, 0x00, 0x00, 0x00, 0x00] matches .error (.badOpcode 0x55) ∧
    decode [0x54, 0x00, 0x05, 0x00, 0x00, 0x00, 0x00, 0x00] matches .error (.badTypeCode 5) ∧
    decode [0x54, 0x00, 0x00, 0x00, 0x01, 0x00, 0x00, 0x00] matches .error .reservedNotZero ∧
    decode [0x54, 0x00, 0x00, 0x00, 0x00, 0x00, 0x00, 0x00, 0x01] matches .error .trailingBytes ∧
    decode [0x54, 0x00, 0x00] matches .error .tooShort := by
  decide +kernel

/-- A table word, placed, is the next form to run: READ.WORD with an empty device list raises
EMPTY_DEVICE_TOKEN at 0 (R162). -/
theorem test_placed_word :
    (after (step (State.reset.withFetchWord 32 0x00020054))).map
        (fun t => (t.kind, t.dt, t.phase, t.errDetail, t.errInfo)) =
      some (some .read, some .word, .fault, 0x32, .position 0) := by
  decide +kernel

/-- Every form, placed right after reset, takes a next state: no read of a register without a value (R43). -/
theorem test_placed_forms_take_a_next_state (i : Instr) :
    (after (step (State.reset.withFetchWord 32 (headWord i).toNat))).isSome = true := by
  cases i <;> decide +kernel

-- Witnesses: for each statement with hypotheses, concrete data that meet all of them together.

/-- A step that answers a state with a property, from the computed answer. -/
theorem next_of_any {o : Host.Outcome State Fault Refusal} {p : State → Bool} (h : (after o).any p = true) :
    ∃ t, o = .next t ∧ p t = true := by
  cases o with
  | next t => exact ⟨t, rfl, by simpa [after] using h⟩
  | fault f => simp [after] at h
  | refused r => simp [after] at h

/-- An `Except` that answers a value, from the computed answer. -/
theorem ok_of_toOption {ε α : Type} {x : Except ε α} {a : α} (h : x.toOption = some a) : x = .ok a := by
  cases x with
  | ok b => simpa [Except.toOption] using h
  | error e => simp [Except.toOption] at h

/-- `"M1"`, `n` times, with a comma between. -/
def m1s : Nat → Bytes
  | 0 => []
  | 1 => ascii ['M', '1']
  | n + 2 => ascii ['M', '1', ','] ++ m1s (n + 1)

/-- 255 device tokens, the first with a suffix of 252 digits: the bounds of the block decoder. -/
def widestList : Bytes := 0x4D :: List.replicate 252 0x31 ++ ascii [','] ++ m1s 254

/-- A state whose operands are the widest device list and a blank value list. -/
def widest : State := started xgt [] [] widestList []

theorem witness_DecodeEncodeRoundTrip :
    Block.wf ⟨.writeWord, ⟨0x5A, List.replicate 252 0x39⟩ :: List.replicate 254 ⟨0x41, [0x30]⟩, [0x20, 0x00]⟩ =
      true := by
  decide +kernel

theorem witness_DecodedBytesAreTheEncoding :
    decode [0x58, 0x00, 0x14, 0x00, 0x00, 0x00, 0x01, 0x00, 0x04, 0x00, 0x25, 0x4D, 0x42, 0x31, 0xFF] =
      .ok ⟨.writeUnknown, [⟨0x4D, [0x31]⟩], [0xFF]⟩ :=
  ok_of_toOption (by decide +kernel)

/-- Also of InstructionBlockLength and ReservedFieldsAreZero, for a form of each kind. -/
theorem witness_BuiltBlockDecodesToItsForm (i : Instr) (h : i = .readLword ∨ i = .writeUnknown) :
    widest.addrCsv = some widestList ∧ (∃ t, exec i widest = .next t ∧ t.phase = .send) ∧
    (split widestList).length ≤ 255 ∧ ∀ tok ∈ split widestList, tok.length ≤ 253 := by
  refine ⟨rfl, ?_, by decide +kernel, by decide +kernel⟩
  rcases h with rfl | rfl
  · obtain ⟨t, e, p⟩ := next_of_any (o := exec .readLword widest) (p := fun t => t.phase = .send) (by decide +kernel)
    exact ⟨t, e, by simpa using p⟩
  · obtain ⟨t, e, p⟩ :=
      next_of_any (o := exec .writeUnknown widest) (p := fun t => t.phase = .send) (by decide +kernel)
    exact ⟨t, e, by simpa using p⟩

theorem witness_FrameLayout :
    widest.family = some xgt ∧ ∃ t, exec .readBit widest = .next t ∧ t.phase = .send := by
  obtain ⟨t, e, p⟩ := next_of_any (o := exec .readBit widest) (p := fun t => t.phase = .send) (by decide +kernel)
  exact ⟨rfl, t, e, by simpa using p⟩

/-- "READ" and the empty string are other strings. -/
theorem witness_OpcodeMuxIsExact (str : Bytes) (h : str = ascii ['R', 'E', 'A', 'D'] ∨ str = []) :
    (started xgt str [] [] []).env.resetLine = false ∧ (started xgt str [] [] []).phase = .build ∧
    (started xgt str [] [] []).kindStr = some str ∧ str ≠ [0x72, 0x65, 0x61, 0x64] ∧
    str ≠ [0x77, 0x72, 0x69, 0x74, 0x65] := by
  rcases h with rfl | rfl <;> decide +kernel

/-- "BIT" and the empty string are other strings. -/
theorem witness_TypeMuxFallsBackToUnknown :
    ∀ str ∈ [ascii ['B', 'I', 'T'], []], str ≠ [0x62, 0x69, 0x74] ∧ str ≠ [0x62, 0x79, 0x74, 0x65] ∧
      str ≠ [0x77, 0x6F, 0x72, 0x64] ∧ str ≠ [0x64, 0x77, 0x6F, 0x72, 0x64] ∧
      str ≠ [0x6C, 0x77, 0x6F, 0x72, 0x64] := by
  decide +kernel

theorem witness_StepRunsTheSelectedForm (i : Instr) :
    (started xgt (kindString i) (dataTypeString i) [] []).env.resetLine = false ∧
    (started xgt (kindString i) (dataTypeString i) [] []).phase = .build ∧
    (started xgt (kindString i) (dataTypeString i) [] []).kindStr = some (kindString i) ∧
    (started xgt (kindString i) (dataTypeString i) [] []).dtypeStr = some (dataTypeString i) ∧
    decodeDescriptor (kindString i) (dataTypeString i) = some i := by
  cases i <;> decide +kernel

/-- The third clause, for an empty token and for one that is not of the grammar; the first two need none. -/
theorem witness_CheckTokensReportsTheFirstFailure (bad : Bytes) (h : bad = [] ∨ bad = ascii ['m', '1']) :
    [ascii ['M', '1'], bad][1]? = some bad ∧ isDeviceToken bad = false ∧
    ∀ j u, j < 1 → [ascii ['M', '1'], bad][j]? = some u → isDeviceToken u = true := by
  refine ⟨rfl, by rcases h with rfl | rfl <;> decide, fun j u hj hu => ?_⟩
  obtain rfl : j = 0 := by omega
  cases hu
  decide

/-- The largest value, and the next one. -/
theorem witness_ParseAcceptsExactlyDecimalU64 :
    (∃ tok : Bytes, tok ≠ [] ∧ (∀ d ∈ tok, 0x30 ≤ d.toNat ∧ d.toNat ≤ 0x39) ∧
      (∑ k : Fin tok.length, (tok[k].toNat - 0x30) * 10 ^ (tok.length - 1 - k)) = 2 ^ 64 - 1) ∧
    (∃ tok : Bytes, tok ≠ [] ∧ (∀ d ∈ tok, 0x30 ≤ d.toNat ∧ d.toNat ≤ 0x39) ∧
      (∑ k : Fin tok.length, (tok[k].toNat - 0x30) * 10 ^ (tok.length - 1 - k)) = 2 ^ 64) := by
  refine ⟨⟨ascii ['1', '8', '4', '4', '6', '7', '4', '4', '0', '7', '3', '7', '0', '9', '5', '5', '1', '6', '1', '5'],
    by decide, by decide, by decide +kernel⟩,
    ⟨ascii ['1', '8', '4', '4', '6', '7', '4', '4', '0', '7', '3', '7', '0', '9', '5', '5', '1', '6', '1', '6'],
    by decide, by decide, by decide +kernel⟩⟩

/-- Tokens that parse, at the bounds of the types' widths, and one that does not: of BitBlockKeepsTheLowByte,
ByteBlockLosesSmallValues, HexBlocksInWidthAreLittleEndian and UnknownValueFollowsTheOpenParameter. -/
theorem witness_ValueTokens :
    parseU64 (ascii ['2', '5', '5']) 0 = .ok 255 ∧ parseU64 (ascii ['6', '5', '5', '3', '5']) 0 = .ok 0xFFFF ∧
    parseU64 (ascii ['4', '2', '9', '4', '9', '6', '7', '2', '9', '5']) 0 = .ok 0xFFFFFFFF ∧
    parseU64 (ascii ['1', '8', '4', '4', '6', '7', '4', '4', '0', '7', '3', '7', '0', '9', '5', '5', '1', '6', '1',
      '5']) 0 = .ok 0xFFFFFFFFFFFFFFFF ∧
    parseU64 (ascii ['x']) 0 = .error ⟨.badValueToken, .position 0⟩ ∧ GUnknown.width2 ≠ .fault ∧
    (∀ seg ∈ split (ascii [',']), seg = []) := by
  refine ⟨ok_of_toOption (by decide +kernel), ok_of_toOption (by decide +kernel),
    ok_of_toOption (by decide +kernel), ok_of_toOption (by decide +kernel), rfl, by decide, by decide⟩

theorem witness_ReorderClosedForm :
    ∀ g ∈ [2, 4, 8, 16], ∀ v ∈ [(0 : U64), 255, 256, 0xFFFFFFFFFFFFFFFF], ∃ b n,
      (g = 2 ∨ g = 4 ∨ g = 8 ∨ g = 16) ∧ b = max 1 ((Nat.size v.toNat + 7) / 8) ∧
      n = (b + g / 2 - 1) / (g / 2) * (g / 2) := by
  intro g hg v _
  simp only [List.mem_cons, List.not_mem_nil, or_false] at hg
  exact ⟨_, _, hg, rfl, rfl⟩

/-- The least and the greatest value of every range of R136's table, with the table's lengths. -/
theorem witness_ValueBlockLengths :
    (([0, 0xFF, 0x100, 0xFFFF, 0x10000, 0xFFFFFF] : List U64).map fun v => (hexBlock 2 v).length) =
      [2, 2, 4, 4, 4, 4] ∧
    (([0x1000000, 0xFFFFFFFF, 0x100000000, 0xFFFFFFFFFF, 0x10000000000, 0xFFFFFFFFFFFF] : List U64).map
      fun v => (hexBlock 2 v).length) = [6, 6, 6, 6, 8, 8] ∧
    (([0x1000000000000, 0xFFFFFFFFFFFFFF, 0x100000000000000, 0xFFFFFFFFFFFFFFFF] : List U64).map
      fun v => (hexBlock 2 v).length) = [8, 8, 10, 10] ∧
    (([0, 0xFFFF, 0x10000, 0xFFFFFFFF, 0x100000000, 0xFFFFFFFFFFFF, 0x1000000000000, 0xFFFFFFFFFFFFFFFF] :
      List U64).map fun v => (hexBlock 4 v).length) = [4, 4, 6, 6, 8, 8, 10, 10] ∧
    (([0, 0xFFFFFFFF, 0x100000000, 0xFFFFFFFFFFFFFFFF] : List U64).map fun v => (hexBlock 8 v).length) =
      [6, 6, 10, 10] ∧
    (([0, 0xFFFFFFFFFFFFFFFF] : List U64).map fun v => (hexBlock 16 v).length) = [10, 10] := by
  decide +kernel

/-- "7,,8" has no token that raises; the first one of "7,,x" that does is at 2. -/
theorem witness_ValuesSkipBlanksAndStopAtTheFirstRaise :
    (∀ k seg, (split (ascii ['7', ',', ',', '8']))[k]? = some seg → seg ≠ [] →
      ∃ b, encodeValue .word seg k = .ok b) ∧
    (split (ascii ['7', ',', ',', 'x']))[2]? = some (ascii ['x']) ∧ ascii ['x'] ≠ [] ∧
    encodeValue .word (ascii ['x']) 2 = .error ⟨.badValueToken, .position 2⟩ ∧
    (∀ j u, j < 2 → (split (ascii ['7', ',', ',', 'x']))[j]? = some u → u ≠ [] →
      ∃ b, encodeValue .word u j = .ok b) := by
  have h8 : split (ascii ['7', ',', ',', '8']) = [[0x37], [], [0x38]] := by decide
  have hx : split (ascii ['7', ',', ',', 'x']) = [[0x37], [], [0x78]] := by decide
  rw [h8, hx]
  refine ⟨fun k seg h hne => ?_, by decide, by decide, rfl, fun j u hj h hne => ?_⟩
  · rcases k with _ | _ | _ | k
    · cases h; exact ⟨_, rfl⟩
    · cases h; exact absurd rfl hne
    · cases h; exact ⟨_, rfl⟩
    · simp at h
  · rcases j with _ | _ | j
    · cases h; exact ⟨_, rfl⟩
    · cases h; exact absurd rfl hne
    · omega

/-- "7" encodes under the five types that are not OPEN, a blank list under every type. -/
theorem witness_WriteFormsBuildTheirFrame :
    (∀ t ∈ split widestList, isDeviceToken t = true) ∧
    (∀ dt : DataType, encodeValues dt [] = ([], none)) ∧
    encodeValues .bit (ascii ['7']) = ([0x01, 0x00, 0x07], none) ∧
    encodeValues .byte (ascii ['7']) = ([0x20, 0x00], none) ∧
    encodeValues .word (ascii ['7']) = ([0x20, 0x00, 0x07, 0x00], none) ∧
    encodeValues .dword (ascii ['7']) = ([0x20, 0x00, 0x07, 0x00, 0x00, 0x00], none) ∧
    encodeValues .lword (ascii ['7']) = ([0x20, 0x00, 0x07, 0x00, 0x00, 0x00, 0x00, 0x00, 0x00, 0x00], none) := by
  refine ⟨by decide +kernel, fun _ => rfl, ?_⟩
  decide +kernel

theorem witness_ReadFormsBuildTheirFrame :
    widest.addrCsv = some widestList ∧ widest.family = some xgt ∧ widest.valCsv = some [] ∧
    ∀ t ∈ split widestList, isDeviceToken t = true := by
  refine ⟨rfl, rfl, rfl, by decide +kernel⟩

/-- A device list whose last token is empty. -/
def badDevice : State := started xgt [] [] (ascii ['M', '1', ',']) []

theorem witness_BadDeviceTokenRaisesInEveryForm :
    badDevice.addrCsv = some (ascii ['M', '1', ',']) ∧
    checkTokens (split (ascii ['M', '1', ','])) = some ⟨.emptyDeviceToken, .position 1⟩ := by
  decide +kernel

/-- A value list whose second token does not parse. -/
def badValue : State := started xgt [] [] (ascii ['M', '1']) (ascii ['1', ',', 'x'])

theorem witness_BadValueTokenRaisesInWriteForms :
    kindOf .writeWord = .write ∧ badValue.addrCsv = some (ascii ['M', '1']) ∧
    badValue.valCsv = some (ascii ['1', ',', 'x']) ∧
    (∀ t ∈ split (ascii ['M', '1']), isDeviceToken t = true) ∧
    encodeValues (dataTypeOf .writeWord) (ascii ['1', ',', 'x']) =
      ([0x20, 0x00, 0x01, 0x00], some ⟨.badValueToken, .position 1⟩) := by
  decide +kernel

/-- A form that builds and one that raises, for each kind. -/
theorem witness_FormsKeepEveryOtherRegister :
    (∃ t, exec .readBit widest = .next t ∧ decide (t.phase = .send) = true) ∧
    (∃ t, exec .writeUnknown widest = .next t ∧ decide (t.phase = .send) = true) ∧
    (∃ t, exec .readBit badDevice = .next t ∧ decide (t.phase = .fault) = true) ∧
    (∃ t, exec .writeWord badValue = .next t ∧ decide (t.phase = .fault) = true) := by
  refine ⟨next_of_any (by decide +kernel), next_of_any (by decide +kernel), next_of_any (by decide +kernel),
    next_of_any (by decide +kernel)⟩

theorem witness_ReadsIgnoreTheValueList : kindOf .readUnknown = .read := rfl

theorem witness_FormsStopOnlyOnAnUnwrittenRegister :
    (badValue.addrCsv.isSome = true ∧ badValue.family.isSome = true ∧ badValue.valCsv.isSome = true) ∧
    State.reset.addrCsv = none := by
  decide +kernel

theorem witness_FamilySelectsTheHeader :
    (xgt = [0x58, 0x47, 0x54] ∨ xgt = [0x58, 0x47, 0x42]) ∧
    ¬([0x78, 0x67, 0x74] = ([0x58, 0x47, 0x54] : Bytes) ∨ [0x78, 0x67, 0x74] = ([0x58, 0x47, 0x42] : Bytes)) := by
  decide

/-- 30 bytes, and 31 bytes of which the last is 0. -/
theorem witness_ShortOrZeroWidthResponseIsNoData :
    ((parsing (z30 []) []).env.resetLine = false ∧ (parsing (z30 []) []).phase = .parse ∧
      (parsing (z30 []) []).rbuf = some (z30 []) ∧ (z30 []).length ≤ 30) ∧
    ((parsing (z30 [0x00]) []).env.resetLine = false ∧ (parsing (z30 [0x00]) []).phase = .parse ∧
      (parsing (z30 [0x00]) []).rbuf = some (z30 [0x00]) ∧ (z30 [0x00])[30]? = some 0) := by
  decide +kernel

/-- 38 bytes with NUM = 2: 10 devices are the most that fit. -/
theorem witness_ParsedValuesAreLittleEndianRegions :
    (parsing (z30 (0x02 :: List.replicate 7 0xFF)) (m1s 10)).rbuf = some (z30 (0x02 :: List.replicate 7 0xFF)) ∧
    (parsing (z30 (0x02 :: List.replicate 7 0xFF)) (m1s 10)).addrCsv = some (m1s 10) ∧
    (z30 (0x02 :: List.replicate 7 0xFF))[30]? = some 2 ∧ (2 : Byte) ≠ 0 ∧ 10 = (split (m1s 10)).length ∧
    10 * ((2 : Byte).toNat + 2) - 2 = (z30 (0x02 :: List.replicate 7 0xFF)).length := by
  decide +kernel

/-- The failing clause: the same response with 11 devices. The other clause: with 10, as above. -/
theorem witness_ParserFailureLaw (n : Nat) (hn : n = 10 ∨ n = 11) :
    (parsing (z30 (0x02 :: List.replicate 7 0xFF)) (m1s n)).rbuf = some (z30 (0x02 :: List.replicate 7 0xFF)) ∧
    (z30 (0x02 :: List.replicate 7 0xFF))[30]? = some 2 ∧ (2 : Byte) ≠ 0 ∧
    (parsing (z30 (0x02 :: List.replicate 7 0xFF)) (m1s n)).addrCsv = some (m1s n) ∧
    30 < (z30 (0x02 :: List.replicate 7 0xFF)).length ∧ n = (split (m1s n)).length ∧
    ((z30 (0x02 :: List.replicate 7 0xFF)).length < n * ((2 : Byte).toNat + 2) - 2 ↔ n = 11) := by
  rcases hn with rfl | rfl <;> decide +kernel

theorem witness_ParserKeepsEveryOtherRegister :
    (parsing (z30 [0x28]) (m1s 1)).rbuf.isSome = true ∧ (parsing (z30 [0x28]) (m1s 1)).addrCsv.isSome = true := by
  decide +kernel

/-- A command with these strings. -/
def someCommand : Command := ⟨xgt, ascii ['r', 'e', 'a', 'd'], ascii ['w', 'o', 'r', 'd'], m1s 2, none⟩

/-- IDLE, with a START waiting and an answer for each call. -/
def idleStart (a : SendAnswer) (r : RecvAnswer) : State :=
  { State.reset with
    env := { State.reset.env with caller := [.start someCommand], sendAnswers := [a], recvAnswers := [r] } }

/-- Also of CommandRefinesItsFunction, for every pair of answers. -/
theorem witness_StartLatchesTheDescriptor (a : SendAnswer) (r : RecvAnswer) :
    (idleStart a r).env.resetLine = false ∧ (idleStart a r).phase = .idle ∧
    (idleStart a r).env.caller = [.start someCommand] ∧ (idleStart a r).env.sendAnswers = [a] ∧
    (idleStart a r).env.recvAnswers = [r] :=
  ⟨rfl, rfl, rfl, rfl, rfl⟩

/-- SEND with an answer waiting. -/
def sending (a : SendAnswer) : State :=
  { State.reset with
    phase := .send, frame := some [0x4C], kind := some .read, addrCsv := some []
    env := { State.reset.env with sendAnswers := [a] } }

/-- RECV with an answer waiting. -/
def receiving (k : Kind) (a : RecvAnswer) : State :=
  { State.reset with
    phase := .recv, kind := some k, addrCsv := some []
    env := { State.reset.env with recvAnswers := [a] } }

theorem witness_SendAnswers (a : SendAnswer) :
    (sending a).env.resetLine = false ∧ (sending a).phase = .send ∧ (sending a).frame = some [0x4C] ∧
    (sending a).env.sendAnswers = [a] :=
  ⟨rfl, rfl, rfl, rfl⟩

theorem witness_ReceiveAnswers (k : Kind) (a : RecvAnswer) :
    (receiving k a).env.resetLine = false ∧ (receiving k a).phase = .recv ∧ (receiving k a).kind = some k ∧
    (receiving k a).env.recvAnswers = [a] :=
  ⟨rfl, rfl, rfl, rfl⟩

/-- A step that goes on in each phase that is not IDLE: also of StartLatchesTheDescriptor's first clause and of
OneTransportEventAStep. -/
theorem witness_DescriptorIsLatched :
    (∃ t, step widest = .next t) ∧ (∃ t, step (sending .ok) = .next t) ∧
    (∃ t, step (receiving .read (.data [0x00])) = .next t) ∧
    (∃ t, step (parsing (z30 [0x28]) (m1s 1)) = .next t) ∧
    (widest.phase = .build ∧ (sending .ok).phase = .send ∧
      (receiving .read (.data [0x00])).phase = .recv ∧ (parsing (z30 [0x28]) (m1s 1)).phase = .parse) :=
  ⟨⟨_, rfl⟩, ⟨_, rfl⟩, ⟨_, rfl⟩, ⟨_, rfl⟩, rfl, rfl, rfl, rfl⟩

theorem witness_OneTransportEventAStep : ∃ t, step (sending .ioErr) = .next t := ⟨_, rfl⟩

theorem witness_PhaseTransitions : ∃ t, step (receiving .write (.data [0x00])) = .next t := ⟨_, rfl⟩

/-- A state with nothing waiting at the host interface. -/
def quiet (s : State) : State := { s with env := State.reset.env }

theorem witness_WaitingKeepsTheState :
    (State.reset.env.resetLine = false ∧ State.reset.phase = .idle ∧ State.reset.env.caller = []) ∧
    ((quiet (sending .ok)).env.resetLine = false ∧ (quiet (sending .ok)).phase = .send ∧
      (quiet (sending .ok)).frame.isSome = true ∧ (quiet (sending .ok)).env.sendAnswers = []) ∧
    ((quiet (receiving .read .ioErr)).env.resetLine = false ∧ (quiet (receiving .read .ioErr)).phase = .recv ∧
      (quiet (receiving .read .ioErr)).kind.isSome = true ∧
      (quiet (receiving .read .ioErr)).env.recvAnswers = []) := by
  decide +kernel

/-- DONE with a value. -/
def doneState : State := { State.reset with phase := .done, result := [0x1234] }

theorem witness_EndReturnsToReset :
    doneState.env.resetLine = false ∧ doneState.phase = .done ∧
    (raise ⟨.ioRecv, .nothing⟩ State.reset).env.resetLine = false ∧
    (raise ⟨.ioRecv, .nothing⟩ State.reset).phase = .fault := by
  decide +kernel

/-- A reset in BUILD, and one in SEND with a frame. -/
def resetIn (s : State) : State := { s with env := { s.env with resetLine := true } }

/-- Also of OneTransportEventAStep, for the reset in SEND. -/
theorem witness_ResetAbandonsTheCommand :
    ((resetIn widest).env.resetLine = true ∧ (resetIn widest).phase ≠ .send) ∧
    ((resetIn (quiet (sending .ok))).env.resetLine = true ∧ (resetIn (quiet (sending .ok))).phase = .send ∧
      (resetIn (quiet (sending .ok))).frame = some [0x4C]) := by
  decide +kernel

/-- The caller initialises the transport library in IDLE. -/
theorem witness_TransportStateIsTheCallers :
    ∃ t, step { State.reset with env := { State.reset.env with caller := [.initTransport] } } = .next t ∧
      t.transport ≠ State.reset.transport :=
  ⟨_, rfl, by decide⟩

/-- A ready state in every phase. -/
theorem witness_NoReadBeforeWrite :
    State.reset.ready = true ∧ widest.ready = true ∧ (sending .ok).ready = true ∧
    (receiving .read .ioErr).ready = true ∧ (parsing (z30 [0x28]) (m1s 1)).ready = true ∧
    (raise ⟨.ioRecv, .nothing⟩ State.reset).ready = true := by
  decide +kernel

/-- IDLE before a START, and SEND with the frame of an empty block. -/
theorem witness_StepKeepsCoherence (a : SendAnswer) (r : RecvAnswer) :
    (idleStart a r).coherent ∧
    ({ sending a with lsis := some true, ibuf := some [], frame := some (requestFrame true []) } : State).coherent ∧
    (∃ t, step (idleStart a r) = .next t) := by
  refine ⟨⟨fun _ => rfl, fun _ => ⟨rfl, rfl, rfl⟩, fun h => ?_, fun _ => rfl, fun h => ?_, fun h => ?_⟩,
    ⟨fun h => ?_, fun _ => ⟨rfl, rfl, rfl⟩, fun h => ?_, fun _ => rfl, fun _ => ⟨true, [], rfl, rfl, rfl⟩, fun h => ?_⟩,
    ⟨_, rfl⟩⟩
  · cases h
  · rcases h with h | h | h <;> cases h
  · cases h
  · cases h
  · cases h
  · cases h

/-- PARSE with a response of one byte, after the `receive` that gave it. -/
def received : State :=
  { parsing [0x00] [] with
    env := { State.reset.env with trace := [.receive Config.rxMaxLen (.data [0x00])] } }

theorem witness_StepKeepsTheResponseBound : received.responseBounded ∧ ∃ t, step received = .next t := by
  refine ⟨⟨fun r h => ?_, fun m a h => ?_⟩, ⟨_, rfl⟩⟩
  · cases h
    exact ⟨Nat.le_refl 1, rxMaxLen_pos⟩
  · obtain ⟨rfl, rfl⟩ : m = Config.rxMaxLen ∧ a = .data [0x00] := by simpa [received] using h
    exact ⟨rfl, fun r hr => by cases hr; exact rxMaxLen_pos⟩

theorem witness_AppendKeepsTheBytesBefore : 0 < (ascii ['M', '1']).length := by decide

end Sys2Proof.Tests
end

section
/-! The family of spec/00_scope.md: splitting at commas (R10), appending to a buffer (R12, R60), and what IDLE, SEND
and RECV do with an answer or with none (R14, R41, R297, R298, R329). -/

namespace Sys2Proof.Machine

-- Splitting at commas

@[simp] theorem split_nil : split [] = [[]] := rfl

@[simp] theorem split_comma_cons (bs : Bytes) : split (comma :: bs) = [] :: split bs := by
  simp [split]

theorem split_ne_nil (s : Bytes) : split s ≠ [] := by
  cases s with
  | nil => simp
  | cons b bs =>
    unfold split
    split
    · simp
    · split <;> simp

/-- A byte that is no comma goes to the front of the first segment, and the other segments stay. -/
theorem split_cons_of_ne_comma {b : Byte} (hb : b ≠ comma) (bs : Bytes) :
    ∃ seg segs, split bs = seg :: segs ∧ split (b :: bs) = (b :: seg) :: segs := by
  obtain ⟨seg, segs, hbs⟩ := List.exists_cons_of_ne_nil (split_ne_nil bs)
  exact ⟨seg, segs, hbs, by rw [split, if_neg hb, hbs]⟩

/-- Induction along the recursion of `split`, on a string together with its segments. -/
theorem split_induction {motive : Bytes → List Bytes → Prop} (nil : motive [] [[]])
    (sep : ∀ bs segs, segs ≠ [] → motive bs segs → motive (comma :: bs) ([] :: segs))
    (byte : ∀ b bs seg segs, b ≠ comma → motive bs (seg :: segs) → motive (b :: bs) ((b :: seg) :: segs))
    (s : Bytes) : motive s (split s) := by
  induction s with
  | nil => exact nil
  | cons b bs ih =>
    by_cases hb : b = comma
    · rw [hb, split_comma_cons]
      exact sep bs _ (split_ne_nil bs) ih
    · obtain ⟨seg, segs, hbs, hcons⟩ := split_cons_of_ne_comma hb bs
      rw [hcons]
      exact byte b bs seg segs hb (hbs ▸ ih)

theorem comma_not_mem_of_mem_split (s : Bytes) : ∀ seg ∈ split s, comma ∉ seg := by
  induction s using split_induction with
  | nil => simp
  | sep bs segs hne ih => simpa using ih
  | byte b bs seg segs hb ih =>
    obtain ⟨hseg, hsegs⟩ := List.forall_mem_cons.mp ih
    exact List.forall_mem_cons.mpr ⟨List.not_mem_cons_of_ne_of_not_mem hb.symm hseg, hsegs⟩

theorem length_split (s : Bytes) : (split s).length = s.count comma + 1 := by
  induction s using split_induction with
  | nil => rfl
  | sep bs segs hne ih => rw [List.length_cons, ih, List.count_cons_self]
  | byte b bs seg segs hb ih => rw [List.count_cons_of_ne hb, ← ih, List.length_cons, List.length_cons]

theorem intercalate_split (s : Bytes) : List.intercalate [comma] (split s) = s := by
  induction s using split_induction with
  | nil => simp
  | sep bs segs hne ih => rw [List.intercalate_cons_of_ne_nil hne, ih]; rfl
  | byte b bs seg segs hb ih =>
    rw [← ih]
    cases segs with
    | nil => simp
    | cons next segs => simp

-- Appending to a buffer

theorem memAppend_getElem?_of_lt {buf : Bytes} {k : Nat} (hk : k < buf.length) (v : Bytes) :
    (memAppend buf v)[k]? = buf[k]? :=
  List.getElem?_append_left hk

theorem memAppend_getElem?_length_add (buf v : Bytes) (k : Nat) :
    (memAppend buf v)[buf.length + k]? = v[k]? := by
  simp [List.getElem?_append_right]

theorem bufferCells_memAppend (buf v : Bytes) :
    bufferCells (memAppend buf v) =
      bufferCells buf ++ (bufferCells v).map fun cell => (buf.length + cell.1, cell.2) := by
  simp only [bufferCells, memAppend_eq, List.zipIdx_append, List.map_append, Nat.zero_add]
  rw [List.zipIdx_eq_map_add (i := buf.length), List.map_map, List.map_map]
  rfl

-- Waiting

theorem idleStep_of_no_act {s : State} (h : s.env.caller = []) : idleStep s = s := by
  simp [idleStep, h]

theorem sendStep_of_no_answer {s : State} (hf : s.frame.isSome = true) (h : s.env.sendAnswers = []) :
    sendStep s = .next s := by
  obtain ⟨frame, hf⟩ := Option.isSome_iff_exists.mp hf
  simp [sendStep, hf, h]

theorem recvStep_of_no_answer {s : State} (hk : s.kind.isSome = true) (h : s.env.recvAnswers = []) :
    recvStep s = .next s := by
  obtain ⟨k, hk⟩ := Option.isSome_iff_exists.mp hk
  simp [recvStep, hk, h]

-- The answers of `receive`

/-- With an answer waiting, RECV logs the draw, leaves the surplus bytes in the stream and takes the draw. -/
theorem recvStep_of_answer {s : State} {k : Kind} {a : RecvAnswer} {later : List RecvAnswer}
    (hk : s.kind = some k) (h : s.env.recvAnswers = a :: later) :
    recvStep s =
      .next (answerReceive k (drawReceive a) (logReceive (drawReceive a) (leaveInStream a later) s)) := by
  simp [recvStep, hk, h]

/-- An answer with a byte is a response cut at the bound, which is positive, so that the byte is drawn (R7, R14,
R297). -/
theorem answerReceive_drawReceive_cons (k : Kind) (b : Byte) (r : Bytes) (s : State) :
    answerReceive k (drawReceive (.data (b :: r))) s = takeResponse k ((b :: r).take Config.rxMaxLen) s := rfl

-- The obligations

/-- Settles O10: the three facts of a split, each by induction along its recursion. -/
theorem splitKeepsEverySegment : Obligations.SplitKeepsEverySegment := fun s =>
  ⟨comma_not_mem_of_mem_split s, length_split s, intercalate_split s⟩

/-- Settles O55: the bytes before the append, the bytes of the append, and the cells of both. -/
theorem appendKeepsTheBytesBefore : Obligations.AppendKeepsTheBytesBefore := fun buf v k =>
  ⟨fun hk => memAppend_getElem?_of_lt hk v, memAppend_getElem?_length_add buf v k, bufferCells_memAppend buf v⟩

/-- Settles O41: in each of the three phases the step of the phase waits. -/
theorem waitingKeepsTheState : Obligations.WaitingKeepsTheState := by
  intro s hr
  refine ⟨fun hp hc => ?_, fun hp hf ha => ?_, fun hp hk ha => ?_⟩
  · simp only [step_phase hr, hp, idleStep_of_no_act hc]
  · simp only [step_phase hr, hp, sendStep_of_no_answer hf ha]
  · simp only [step_phase hr, hp, recvStep_of_no_answer hk ha]

/-- Settles O40, by cases on the answer, and for a response on the kind. -/
theorem receiveAnswers : Obligations.ReceiveAnswers := by
  intro s k a later hr hp hk ha
  simp only [step_phase hr, hp, recvStep_of_answer hk ha]
  cases a with
  | connErr => rfl
  | ioErr => rfl
  | data d =>
    cases d with
    | nil =>
      have hle : ([] : Bytes).length ≤ Config.rxMaxLen := Nat.zero_le _
      rw [drawReceive_of_le hle, leaveInStream_of_le hle]
      rfl
    | cons b r =>
      rw [answerReceive_drawReceive_cons]
      cases k with
      | read => rfl
      | write => rfl

end Sys2Proof.Machine
end

section
/-! The family of spec/10_state.md: the reset values (R42), what a form leaves unchanged (R32, R35, R40), where a
form stops (R42, R43), and the invariants that every step keeps (R30, R35, R37, R38, R43, R90). -/

namespace Sys2Proof.Machine

-- What a form can do

/-- Everything a form of either kind can do: raise with the buffers of the instruction builder written, or build
the frame of its block (R190 to R201, R235, R324). -/
theorem exec_next {i : Instr} {s t : State} (h : exec i s = .next t) :
    ∃ tokens vbuf, (kindOf i = .read → vbuf = s.vbuf) ∧
      ((∃ e ibuf, t = raise e { s with
          kind := some (kindOf i), dt := some (dataTypeOf i), tokens := tokens, ibuf := ibuf, vbuf := vbuf }) ∨
        ∃ block lsis hbuf, t = { s with
          kind := some (kindOf i), dt := some (dataTypeOf i), tokens := tokens, ibuf := some block, vbuf := vbuf
          lsis := some lsis, hbuf := hbuf, frame := some (requestFrame lsis block), phase := .send }) := by
  rw [exec_eq] at h
  cases hk : kindOf i with
  | read =>
    rw [hk] at h
    obtain ⟨csv, -, ⟨e, -, rfl⟩ | ⟨-, family, -, rfl⟩⟩ := buildRead_next h
    · exact ⟨_, s.vbuf, fun _ => rfl, .inl ⟨e, s.ibuf, rfl⟩⟩
    · exact ⟨_, s.vbuf, fun _ => rfl, .inr ⟨_, _, _, rfl⟩⟩
  | write =>
    rw [hk] at h
    obtain ⟨csv, -, ⟨e, -, rfl⟩ | ⟨-, vals, -, ⟨e, -, rfl⟩ | ⟨-, family, -, rfl⟩⟩⟩ := buildWrite_next h
    · exact ⟨_, s.vbuf, fun _ => rfl, .inl ⟨e, s.ibuf, rfl⟩⟩
    · exact ⟨_, _, nofun, .inl ⟨e, _, rfl⟩⟩
    · exact ⟨_, _, nofun, .inr ⟨_, _, _, rfl⟩⟩

/-- A form ends in SEND or in FAULT (R292, R324). -/
theorem exec_phase {i : Instr} {s t : State} (h : exec i s = .next t) : t.phase = .send ∨ t.phase = .fault := by
  obtain ⟨_, _, -, ⟨_, _, rfl⟩ | ⟨_, _, _, rfl⟩⟩ := exec_next h
  · exact .inr rfl
  · exact .inl rfl

/-- A form touches neither the transport nor the host interface (R40, R235). -/
theorem exec_transport {i : Instr} {s t : State} (h : exec i s = .next t) : t.transport = s.transport := by
  obtain ⟨_, _, -, ⟨_, _, rfl⟩ | ⟨_, _, _, rfl⟩⟩ := exec_next h <;> rfl

theorem exec_env {i : Instr} {s t : State} (h : exec i s = .next t) : t.env = s.env := by
  obtain ⟨_, _, -, ⟨_, _, rfl⟩ | ⟨_, _, _, rfl⟩⟩ := exec_next h <;> rfl

theorem exec_rbuf {i : Instr} {s t : State} (h : exec i s = .next t) : t.rbuf = s.rbuf := by
  obtain ⟨_, _, -, ⟨_, _, rfl⟩ | ⟨_, _, _, rfl⟩⟩ := exec_next h <;> rfl

-- Where an operation answers a next state

theorem readReg_answers {α : Type} {reg : Option α} {name : Register} {go : α → Result} (hr : reg.isSome = true)
    (hgo : ∀ v, ∃ t, go v = .next t) : ∃ t, readReg reg name go = .next t := by
  obtain ⟨v, rfl⟩ := Option.isSome_iff_exists.mp hr
  exact hgo v

theorem finishBuild_answers (ibuf : Bytes) {s : State} (hf : s.family.isSome = true) :
    ∃ t, finishBuild ibuf s = .next t :=
  readReg_answers hf fun _ => ⟨_, rfl⟩

/-- The shared part of a form answers where ADDR_CSV holds a value and the rest of the form answers. -/
theorem buildItems_answers {k : Kind} {dt : DataType} {s : State} {go : Bytes → State → Result}
    (ha : s.addrCsv.isSome = true)
    (hgo : ∀ block s', s'.family = s.family → s'.valCsv = s.valCsv → ∃ t, go block s' = .next t) :
    ∃ t, buildItems k dt s go = .next t := by
  refine readReg_answers ha fun csv => ?_
  split
  · exact ⟨_, rfl⟩
  · exact hgo _ _ rfl rfl

theorem exec_answers (i : Instr) {s : State} (ha : s.addrCsv.isSome = true) (hf : s.family.isSome = true)
    (hv : s.valCsv.isSome = true) : ∃ t, exec i s = .next t := by
  rw [exec_eq]
  cases kindOf i with
  | read => exact buildItems_answers ha fun block s' hf' _ => finishBuild_answers block (hf' ▸ hf)
  | write =>
    refine buildItems_answers ha fun block s' hf' hv' => readReg_answers (hv' ▸ hv) fun vals => ?_
    split
    · exact ⟨_, rfl⟩
    · exact finishBuild_answers _ (hf' ▸ hf)

/-- The first read of every form is that of ADDR_CSV (R182). -/
theorem exec_of_no_addrCsv (i : Instr) {s : State} (ha : s.addrCsv = none) :
    exec i s = .fault (.noValue .addrCsv) := by
  rw [exec_eq]
  cases kindOf i with
  | read => simp [buildRead, buildItems, ha]
  | write => simp [buildWrite, buildItems, ha]

theorem buildStep_answers {s : State} (hk : s.kindStr.isSome = true) (hd : s.dtypeStr.isSome = true)
    (ha : s.addrCsv.isSome = true) (hf : s.family.isSome = true) (hv : s.valCsv.isSome = true) :
    ∃ t, buildStep s = .next t := by
  refine readReg_answers hk fun kindStr => ?_
  split
  · exact ⟨_, rfl⟩
  · exact readReg_answers hd fun _ => exec_answers _ ha hf hv

theorem sendStep_answers {s : State} (hf : s.frame.isSome = true) : ∃ t, sendStep s = .next t := by
  refine readReg_answers hf fun frame => ?_
  split <;> exact ⟨_, rfl⟩

theorem recvStep_answers {s : State} (hk : s.kind.isSome = true) : ∃ t, recvStep s = .next t := by
  refine readReg_answers hk fun k => ?_
  split <;> exact ⟨_, rfl⟩

theorem parseResponse_answers {s : State} (hr : s.rbuf.isSome = true) (ha : s.addrCsv.isSome = true) :
    ∃ t, parseResponse s = .next t := by
  refine readReg_answers hr fun r => ?_
  split
  · unfold parseWithWidth
    split
    · exact ⟨_, rfl⟩
    · refine readReg_answers ha fun csv => ?_
      split <;> exact ⟨_, rfl⟩
  · exact ⟨_, rfl⟩

-- No form refuses

theorem finishBuild_ne_refused (ibuf : Bytes) (s : State) (r : Refusal) : finishBuild ibuf s ≠ .refused r := by
  intro h
  obtain ⟨_, -, h⟩ := readReg_refused h
  cases h

theorem buildItems_ne_refused {k : Kind} {dt : DataType} {s : State} {go : Bytes → State → Result} {r : Refusal}
    (hgo : ∀ block s', go block s' ≠ .refused r) : buildItems k dt s go ≠ .refused r := by
  intro h
  obtain ⟨csv, -, h⟩ := readReg_refused h
  split at h
  · cases h
  · exact hgo _ _ h

theorem exec_ne_refused (i : Instr) (s : State) (r : Refusal) : exec i s ≠ .refused r := by
  rw [exec_eq]
  cases kindOf i with
  | read => exact buildItems_ne_refused fun block s' => finishBuild_ne_refused block s' r
  | write =>
    refine buildItems_ne_refused fun block s' h => ?_
    obtain ⟨vals, -, h⟩ := readReg_refused h
    split at h
    · cases h
    · exact finishBuild_ne_refused _ _ r h

-- What a step can do

/-- Every way in which a step answers a next state (R290 to R300, R351): a reset, a wait, and per phase what the
phase does with the registers and the answers that it has. -/
inductive StepCase (s : State) : State → Prop where
  | reset : s.env.resetLine = true → StepCase s (takeReset s)
  | wait : s.phase = .idle ∨ s.phase = .send ∨ s.phase = .recv → StepCase s s
  | act {a : CallerAct} {later : List CallerAct} : s.phase = .idle → s.env.caller = a :: later →
      StepCase s (callerAct a { s with env := { s.env with caller := later } })
  | badKind : s.phase = .build → StepCase s (raise ⟨.badRequestKind, .nothing⟩ s)
  | form {i : Instr} {t : State} : s.phase = .build → exec i s = .next t → StepCase s t
  | sent {frame : Bytes} {later : List SendAnswer} : s.phase = .send → s.frame = some frame →
      StepCase s { logSend frame .ok later s with phase := .recv }
  | sendFailed {frame : Bytes} {c : Cause} {a : SendAnswer} {later : List SendAnswer} :
      s.phase = .send → s.frame = some frame → StepCase s (raise ⟨c, .nothing⟩ (logSend frame a later s))
  | received {k : Kind} {r : Bytes} {later : List RecvAnswer} : s.phase = .recv → s.kind = some k →
      1 ≤ r.length → r.length ≤ Config.rxMaxLen → StepCase s (takeResponse k r (logReceive (.data r) later s))
  | receiveFailed {c : Cause} {a : RecvAnswer} {later : List RecvAnswer} : s.phase = .recv →
      (∀ r, a = .data r → r.length ≤ Config.rxMaxLen) → StepCase s (raise ⟨c, .nothing⟩ (logReceive a later s))
  | noData (num : Option Byte) : s.phase = .parse → StepCase s { s with num := num, result := [], phase := .done }
  | parsed {num : Byte} {count : Nat} {regs : Option LoopRegs} {out : List U64} : s.phase = .parse →
      StepCase s { setParseRegs num count regs s with result := out, phase := .done }
  | parseFailed {num : Byte} {count : Nat} {regs : Option LoopRegs} : s.phase = .parse →
      StepCase s (raise ⟨.protoIndex, indexInfo regs⟩ (setParseRegs num count regs s))
  | ended : s.phase = .done ∨ s.phase = .fault → StepCase s (endCommand s)

theorem stepCase_of_sendStep {s t : State} (hp : s.phase = .send) (h : sendStep s = .next t) : StepCase s t := by
  obtain ⟨frame, hf, ⟨-, rfl⟩ | ⟨later, ⟨-, rfl⟩ | ⟨-, rfl⟩ | ⟨-, rfl⟩⟩⟩ := sendStep_next h
  · exact .wait (.inr (.inl hp))
  · exact .sent hp hf
  · exact .sendFailed hp hf
  · exact .sendFailed hp hf

theorem stepCase_of_recvStep {s t : State} (hp : s.phase = .recv) (h : recvStep s = .next t) : StepCase s t := by
  obtain ⟨k, hk, ⟨-, rfl⟩ | ⟨a, later, -, ⟨b, r, hd, hl, rfl⟩ | ⟨-, rfl⟩ | ⟨-, rfl⟩⟩⟩ := recvStep_next h
  · exact .wait (.inr (.inr hp))
  · rw [hd]
    exact .received hp hk (Nat.succ_pos _) hl
  · exact .receiveFailed hp fun _ => drawReceive_bounded
  · exact .receiveFailed hp fun _ => drawReceive_bounded

theorem stepCase_of_parseResponse {s t : State} (hp : s.phase = .parse) (h : parseResponse s = .next t) :
    StepCase s t := by
  obtain ⟨r, -, ⟨-, rfl⟩ | ⟨num, -, h⟩⟩ := parseResponse_next h
  · exact .noData s.num hp
  · obtain ⟨-, rfl⟩ | ⟨-, csv, -, regs, out, ⟨-, rfl⟩ | ⟨-, rfl⟩⟩ := parseWithWidth_next h
    · exact .noData (some num) hp
    · exact .parsed hp
    · exact .parseFailed hp

/-- A step that answers a next state is one of the cases. -/
theorem step_cases {s t : State} (h : step s = .next t) : StepCase s t := by
  cases hr : s.env.resetLine with
  | true =>
    cases (step_reset hr).symm.trans h
    exact .reset hr
  | false =>
    rw [step_phase hr] at h
    cases hp : s.phase <;> simp only [hp] at h
    case idle =>
      cases h
      obtain ⟨-, he⟩ | ⟨a, later, hc, he⟩ := idleStep_cases s <;> rw [he]
      · exact .wait (.inl hp)
      · exact .act hp hc
    case build =>
      obtain ⟨_, -, ⟨-, rfl⟩ | ⟨_, _, -, -, h⟩⟩ := buildStep_next h
      · exact .badKind hp
      · exact .form hp h
    case send => exact stepCase_of_sendStep hp h
    case recv => exact stepCase_of_recvStep hp h
    case parse => exact stepCase_of_parseResponse hp h
    case done => cases h; exact .ended (.inl hp)
    case fault => cases h; exact .ended (.inr hp)

-- Ready states (R43)

/-- IDLE, DONE and FAULT read no register that may hold no value. -/
theorem ready_of_idle_or_end {s : State} (hp : s.phase = .idle ∨ s.phase = .done ∨ s.phase = .fault) :
    s.ready = true := by
  rcases hp with hp | hp | hp <;> simp [State.ready, hp]

theorem ready_build_iff {s : State} (hp : s.phase = .build) :
    s.ready = true ↔ s.family.isSome = true ∧ s.kindStr.isSome = true ∧ s.dtypeStr.isSome = true ∧
      s.addrCsv.isSome = true ∧ s.valCsv.isSome = true := by
  simp [State.ready, hp, and_assoc]

theorem ready_send_iff {s : State} (hp : s.phase = .send) :
    s.ready = true ↔ s.frame.isSome = true ∧ s.kind.isSome = true ∧ s.addrCsv.isSome = true := by
  simp [State.ready, hp, and_assoc]

theorem ready_recv_iff {s : State} (hp : s.phase = .recv) :
    s.ready = true ↔ s.kind.isSome = true ∧ s.addrCsv.isSome = true := by
  simp [State.ready, hp]

theorem ready_parse_iff {s : State} (hp : s.phase = .parse) :
    s.ready = true ↔ s.rbuf.isSome = true ∧ s.addrCsv.isSome = true := by
  simp [State.ready, hp]

theorem startCommand_ready (c : Command) (s : State) : (startCommand c s).ready = true := rfl

/-- In a ready state every register that the step reads holds a value, so that the step answers. -/
theorem step_answers_of_ready {s : State} (h : s.ready = true) : ∃ t, step s = .next t := by
  cases hr : s.env.resetLine with
  | true => exact ⟨_, step_reset hr⟩
  | false =>
    rw [step_phase hr]
    cases hp : s.phase with
    | idle => exact ⟨_, rfl⟩
    | build =>
      obtain ⟨hf, hk, hd, ha, hv⟩ := (ready_build_iff hp).mp h
      exact buildStep_answers hk hd ha hf hv
    | send => exact sendStep_answers ((ready_send_iff hp).mp h).1
    | recv => exact recvStep_answers ((ready_recv_iff hp).mp h).1
    | parse =>
      obtain ⟨hb, ha⟩ := (ready_parse_iff hp).mp h
      exact parseResponse_answers hb ha
    | done => exact ⟨_, rfl⟩
    | fault => exact ⟨_, rfl⟩

/-- A form that goes on to SEND has written FRAME and KIND, and has read ADDR_CSV, which it keeps. -/
theorem exec_keeps_ready {i : Instr} {s t : State} (ha : s.addrCsv.isSome = true) (h : exec i s = .next t) :
    t.ready = true := by
  obtain ⟨_, _, -, ⟨_, _, rfl⟩ | ⟨_, _, _, rfl⟩⟩ := exec_next h
  · rfl
  · exact (ready_send_iff rfl).mpr ⟨rfl, rfl, ha⟩

theorem step_keeps_ready {s t : State} (hs : s.ready = true) (h : step s = .next t) : t.ready = true := by
  cases step_cases h with
  | wait => exact hs
  | @act a _ hp _ =>
    cases a with
    | start c => exact startCommand_ready c _
    | _ => exact ready_of_idle_or_end (.inl hp)
  | form hp he =>
    obtain ⟨-, -, -, ha, -⟩ := (ready_build_iff hp).mp hs
    exact exec_keeps_ready ha he
  | sent hp _ => exact (ready_recv_iff rfl).mpr ((ready_send_iff hp).mp hs).2
  | @received k _ _ hp _ _ _ =>
    cases k with
    | read => exact (ready_parse_iff rfl).mpr ⟨rfl, ((ready_recv_iff hp).mp hs).2⟩
    | write => rfl
  | _ => rfl

-- Coherent states (R30, R37, R38, R90)

/-- A state that is as after reset is coherent. -/
theorem coherent_of_blockReset {s : State} (h : blockReset s = s) : s.coherent := by
  rw [← h]
  refine ⟨fun _ => rfl, fun _ => ⟨rfl, rfl, rfl⟩, nofun, fun _ => rfl, ?_, nofun⟩
  rintro (hp | hp | hp) <;> cases hp

/-- Whatever was written before it, a raise gives a coherent state: it writes the status and RESULT (R324). -/
theorem raise_coherent (e : Raise) (s : State) : (raise e s).coherent := by
  refine ⟨nofun, fun hp => absurd rfl hp, fun _ => ⟨e.cause, rfl, rfl⟩, fun _ => rfl, ?_, nofun⟩
  rintro (hp | hp | hp) <;> cases hp

/-- DONE asks only for a clear status (R37). -/
theorem coherent_of_done {s : State} (hp : s.phase = .done) (hc : s.statusClear) : s.coherent := by
  refine ⟨?_, fun _ => hc, ?_, fun h => absurd hp h, ?_, ?_⟩ <;> simp [hp]

/-- BUILD asks for a clear status and an empty RESULT (R37, R38). -/
theorem coherent_of_build {s : State} (hp : s.phase = .build) (hc : s.statusClear) (hr : s.result = []) :
    s.coherent := by
  refine ⟨?_, fun _ => hc, ?_, fun _ => hr, ?_, ?_⟩ <;> simp [hp]

/-- SEND, RECV and PARSE ask for FRAME as well, and PARSE for a read (R90, R297). -/
theorem coherent_of_framed {s : State} (hp : s.phase = .send ∨ s.phase = .recv ∨ s.phase = .parse)
    (hc : s.statusClear) (hr : s.result = []) (hf : s.framed) (hk : s.phase = .parse → s.kind = some .read) :
    s.coherent := by
  refine ⟨?_, fun _ => hc, ?_, fun _ => hr, fun _ => hf, hk⟩ <;> rcases hp with hp | hp | hp <;> simp [hp]

/-- A coherent state outside DONE and FAULT has a clear status and an empty RESULT. -/
theorem State.coherent.clear {s : State} (h : s.coherent) (hd : s.phase ≠ .done) (hf : s.phase ≠ .fault) :
    s.statusClear ∧ s.result = [] := by
  obtain ⟨-, hclear, -, hres, -, -⟩ := h
  exact ⟨hclear hf, hres hd⟩

theorem State.coherent.blockReset_eq {s : State} (h : s.coherent) (hp : s.phase = .idle) : blockReset s = s := h.1 hp

theorem State.coherent.framed {s : State} (h : s.coherent)
    (hp : s.phase = .send ∨ s.phase = .recv ∨ s.phase = .parse) : s.framed := by
  obtain ⟨-, -, -, -, hframed, -⟩ := h
  exact hframed hp

/-- An act of the caller in IDLE starts a command or leaves every register of the block at its reset value. -/
theorem callerAct_coherent (a : CallerAct) {s : State} (h : blockReset s = s) : (callerAct a s).coherent := by
  cases a with
  | start c => exact coherent_of_build rfl ⟨rfl, rfl, rfl⟩ rfl
  | _ =>
    refine coherent_of_blockReset ?_
    rw [← h]
    rfl

theorem exec_coherent {i : Instr} {s t : State} (hc : s.statusClear) (hr : s.result = [])
    (h : exec i s = .next t) : t.coherent := by
  obtain ⟨_, _, -, ⟨e, _, rfl⟩ | ⟨block, lsis, _, rfl⟩⟩ := exec_next h
  · exact raise_coherent e _
  · exact coherent_of_framed (.inl rfl) hc hr ⟨lsis, block, rfl, rfl, rfl⟩ nofun

theorem step_keeps_coherent {s t : State} (hs : s.coherent) (h : step s = .next t) : t.coherent := by
  cases step_cases h with
  | reset => exact coherent_of_blockReset rfl
  | wait => exact hs
  | act hp _ =>
    refine callerAct_coherent _ ?_
    rw [← hs.blockReset_eq hp]
    rfl
  | form hp he =>
    obtain ⟨hc, hr⟩ := hs.clear (by simp [hp]) (by simp [hp])
    exact exec_coherent hc hr he
  | sent hp _ =>
    obtain ⟨hc, hr⟩ := hs.clear (by simp [hp]) (by simp [hp])
    exact coherent_of_framed (.inr (.inl rfl)) hc hr (hs.framed (.inl hp)) nofun
  | @received k _ _ hp hk _ _ =>
    obtain ⟨hc, hr⟩ := hs.clear (by simp [hp]) (by simp [hp])
    cases k with
    | read => exact coherent_of_framed (.inr (.inr rfl)) hc hr (hs.framed (.inr (.inl hp))) fun _ => hk
    | write => exact coherent_of_done rfl hc
  | noData num hp => exact coherent_of_done rfl (hs.clear (by simp [hp]) (by simp [hp])).1
  | parsed hp => exact coherent_of_done rfl (hs.clear (by simp [hp]) (by simp [hp])).1
  | badKind => exact raise_coherent _ _
  | sendFailed => exact raise_coherent _ _
  | receiveFailed => exact raise_coherent _ _
  | parseFailed => exact raise_coherent _ _
  | ended => exact coherent_of_blockReset rfl

-- The transport state (R40)

/-- Only an act of the caller in IDLE other than a START can change the transport state. -/
theorem step_transport {s t : State} (h : step s = .next t) :
    t.transport = s.transport ∨
      s.phase = .idle ∧ ∃ a later, s.env.caller = a :: later ∧ ∀ c, a ≠ .start c := by
  cases step_cases h with
  | @act a later hp hc =>
    cases a with
    | start c => exact .inl rfl
    | _ => exact .inr ⟨hp, _, later, hc, nofun⟩
  | form _ he => exact .inl (exec_transport he)
  | received => exact .inl (takeResponse_transport _ _ _)
  | _ => exact .inl rfl

-- The response bound (R14, R35, R67)

/-- What the bound asks of an event of the trace. -/
def TransportEvent.bounded (ev : TransportEvent) : Prop :=
  ∀ m a, ev = .receive m a → m = Config.rxMaxLen ∧ ∀ r, a = .data r → r.length ≤ Config.rxMaxLen

/-- The bound, said of the trace event by event. -/
theorem responseBounded_iff (s : State) :
    s.responseBounded ↔
      (∀ r, s.rbuf = some r → 1 ≤ r.length ∧ r.length ≤ Config.rxMaxLen) ∧ ∀ ev ∈ s.env.trace, ev.bounded := by
  refine and_congr_right fun _ => ⟨fun h ev hev m a he => h m a (he ▸ hev), fun h m a hev => h _ hev m a rfl⟩

/-- The bound asks nothing of a `send`, whether it was answered or abandoned. -/
theorem send_bounded (frame : Bytes) (a : SendAnswer) : (TransportEvent.send frame a).bounded := nofun

theorem sendAbandoned_bounded (handed : Bytes) : (TransportEvent.sendAbandoned handed).bounded := nofun

/-- A `receive` with the bound whose answer is within it. -/
theorem receive_bounded {a : RecvAnswer} (h : ∀ r, a = .data r → r.length ≤ Config.rxMaxLen) :
    (TransportEvent.receive Config.rxMaxLen a).bounded := by
  rintro m a' ⟨⟩
  exact ⟨rfl, h⟩

/-- RBUF is written by RECV alone, with a response of 1 to RX_MAX_LEN bytes (R35, R297); a reset and END empty
it. -/
theorem step_rbuf {s t : State} (h : step s = .next t) {r : Bytes} (hr : t.rbuf = some r) :
    s.rbuf = some r ∨ 1 ≤ r.length ∧ r.length ≤ Config.rxMaxLen := by
  cases step_cases h with
  | reset => cases hr
  | ended => cases hr
  | @act a => cases a <;> exact .inl hr
  | form _ he => exact .inl ((exec_rbuf he).symm.trans hr)
  | @received k _ _ _ _ hpos hle =>
    right
    cases k <;> cases hr <;> exact ⟨hpos, hle⟩
  | _ => exact .inl hr

theorem takeReset_trace (s : State) :
    (takeReset s).env.trace = s.env.trace ∨
      ∃ handed, (takeReset s).env.trace = s.env.trace ++ [.sendAbandoned handed] := by
  obtain ⟨frame, -, -, he⟩ | ⟨-, he⟩ := abandonCommand_cases s
  · exact .inr ⟨_, by rw [takeReset_env, he]⟩
  · exact .inl (by rw [takeReset_env, he])

/-- A step logs nothing or one event, and a `receive` among them is within the bound (R14, R67, R72). -/
theorem step_trace {s t : State} (h : step s = .next t) :
    t.env.trace = s.env.trace ∨ ∃ ev, TransportEvent.bounded ev ∧ t.env.trace = s.env.trace ++ [ev] := by
  cases step_cases h with
  | reset =>
    obtain he | ⟨handed, he⟩ := takeReset_trace s
    · exact .inl he
    · exact .inr ⟨_, sendAbandoned_bounded handed, he⟩
  | @act a => cases a <;> exact .inl rfl
  | form _ he => rw [exec_env he]; exact .inl rfl
  | sent => exact .inr ⟨_, send_bounded _ _, rfl⟩
  | sendFailed => exact .inr ⟨_, send_bounded _ _, rfl⟩
  | @received _ r _ _ _ _ hle =>
    rw [takeResponse_env]
    exact .inr ⟨_, receive_bounded (by rintro _ ⟨⟩; exact hle), rfl⟩
  | receiveFailed _ hle => exact .inr ⟨_, receive_bounded hle, rfl⟩
  | _ => exact .inl rfl

theorem step_keeps_responseBounded {s t : State} (hs : s.responseBounded) (h : step s = .next t) :
    t.responseBounded := by
  obtain ⟨hrbuf, htrace⟩ := (responseBounded_iff s).mp hs
  refine (responseBounded_iff t).mpr ⟨fun r hr => (step_rbuf h hr).elim (hrbuf r) id, ?_⟩
  obtain he | ⟨ev, hev, he⟩ := step_trace h <;> rw [he]
  · exact htrace
  · simpa [or_imp, forall_and, hev] using htrace

-- The obligations

/-- Settles O49: a ready state's step answers, and every step keeps readiness. -/
theorem noReadBeforeWrite : Obligations.NoReadBeforeWrite := fun _ hs =>
  (step_answers_of_ready hs).imp fun _ h => ⟨h, step_keeps_ready hs h⟩

/-- Settles O51, by the cases of a step. -/
theorem stepKeepsCoherence : Obligations.StepKeepsCoherence := fun _ _ => step_keeps_coherent

/-- Settles O24: what the two ways in which a form ends leave unchanged. -/
theorem formsKeepEveryOtherRegister : Obligations.FormsKeepEveryOtherRegister := by
  intro i s t h
  obtain ⟨_, _, hvbuf, ⟨_, _, rfl⟩ | ⟨_, _, _, rfl⟩⟩ := exec_next h <;>
    refine ⟨⟨rfl, rfl, rfl, rfl, rfl⟩, ⟨rfl, rfl, rfl, rfl, rfl, rfl, rfl⟩, rfl, rfl, hvbuf, ?_, ?_⟩
  case inl.refine_1 => exact nofun
  case inl.refine_2 => exact fun _ => ⟨rfl, rfl, rfl, rfl⟩
  case inr.refine_1 => exact fun _ => ⟨rfl, rfl, rfl, rfl⟩
  case inr.refine_2 => exact fun hp => absurd rfl hp

/-- Settles O26: the forms answer on loaded operands, read ADDR_CSV first, and refuse nothing. -/
theorem formsStopOnlyOnAnUnwrittenRegister : Obligations.FormsStopOnlyOnAnUnwrittenRegister :=
  ⟨fun i _ ha hf hv => (exec_answers i ha hf hv).imp fun _ h => ⟨h, exec_phase h⟩,
    fun i _ => exec_of_no_addrCsv i, exec_ne_refused⟩

/-- Settles O47: of the two cases of a step, a change of the transport state leaves the caller's act. -/
theorem transportStateIsTheCallers : Obligations.TransportStateIsTheCallers :=
  ⟨fun _ _ h hne => (step_transport h).resolve_left hne, fun _ => ⟨rfl, rfl⟩⟩

/-- Settles O53: from what a step does to RBUF and to the trace. -/
theorem stepKeepsTheResponseBound : Obligations.StepKeepsTheResponseBound := fun _ _ => step_keeps_responseBounded

/-- Settles O44: the reset state as the model writes it out. -/
theorem resetValues : Obligations.ResetValues := by
  unfold Obligations.ResetValues
  decide

/-- Settles O50: IDLE reads nothing, and a START writes all that BUILD reads. -/
theorem resetAndStartAreReady : Obligations.ResetAndStartAreReady :=
  ⟨ready_of_idle_or_end (.inl rfl), startCommand_ready⟩

/-- Settles O54: RBUF is empty and so is the trace. -/
theorem resetIsResponseBounded : Obligations.ResetIsResponseBounded := ⟨nofun, nofun⟩

end Sys2Proof.Machine
end

section
/-! The family of spec/20_memory.md: outside IDLE the block does not see the caller's later acts (R75, R354). -/

namespace Sys2Proof.Machine

-- Replacing the acts that wait

/-- The state with other acts of the caller waiting. -/
def State.withCaller (s : State) (acts : List CallerAct) : State :=
  { s with env := { s.env with caller := acts } }

@[simp] theorem withCaller_phase (s : State) (acts : List CallerAct) : (s.withCaller acts).phase = s.phase := rfl
@[simp] theorem withCaller_frame (s : State) (acts : List CallerAct) : (s.withCaller acts).frame = s.frame := rfl
@[simp] theorem withCaller_sendAnswers (s : State) (acts : List CallerAct) :
    (s.withCaller acts).env.sendAnswers = s.env.sendAnswers := rfl
@[simp] theorem withCaller_recvAnswers (s : State) (acts : List CallerAct) :
    (s.withCaller acts).env.recvAnswers = s.env.recvAnswers := rfl

/-- A change of the next state of an answer; a stop stays as it is. -/
def mapNext (f : State → State) : Result → Result
  | .next t => .next (f t)
  | .fault r => .fault r
  | .refused r => .refused r

/-- An operation that neither reads nor writes the acts that wait: replacing them after it is replacing them
before it. -/
def CallerBlind (op : State → Result) : Prop :=
  ∀ (s : State) (acts : List CallerAct), mapNext (·.withCaller acts) (op s) = op (s.withCaller acts)

/-- A register read commutes with a change of the next state where what comes after the read does. -/
theorem mapNext_readReg {α : Type} {reg : Option α} {name : Register} {go go' : α → Result} {f : State → State}
    (h : ∀ v, mapNext f (go v) = go' v) : mapNext f (readReg reg name go) = readReg reg name go' := by
  cases reg with
  | some v => exact h v
  | none => rfl

-- BUILD

theorem finishBuild_callerBlind (ibuf : Bytes) : CallerBlind (finishBuild ibuf) := fun _ _ =>
  mapNext_readReg fun _ => rfl

/-- The shared part of a form is blind where the rest of the form is. -/
theorem buildItems_callerBlind {k : Kind} {dt : DataType} {go : Bytes → State → Result}
    (hgo : ∀ block, CallerBlind (go block)) : CallerBlind fun s => buildItems k dt s go := fun _ acts => by
  refine mapNext_readReg fun csv => ?_
  cases checkTokens (tokenize csv) with
  | some e => rfl
  | none => exact hgo _ _ acts

theorem buildRead_callerBlind (dt : DataType) : CallerBlind (buildRead dt) :=
  buildItems_callerBlind finishBuild_callerBlind

theorem buildWrite_callerBlind (dt : DataType) : CallerBlind (buildWrite dt) := by
  refine buildItems_callerBlind fun block s acts => mapNext_readReg fun vals => ?_
  cases (encodeValues dt vals).2 with
  | some e => rfl
  | none => exact finishBuild_callerBlind _ _ acts

theorem exec_callerBlind (i : Instr) : CallerBlind (exec i) := fun s acts => by
  rw [exec_eq, exec_eq]
  cases kindOf i with
  | read => exact buildRead_callerBlind _ s acts
  | write => exact buildWrite_callerBlind _ s acts

theorem buildStep_callerBlind : CallerBlind buildStep := fun s acts => by
  refine mapNext_readReg fun kindStr => ?_
  cases kindOfString kindStr with
  | none => rfl
  | some k => exact mapNext_readReg fun _ => exec_callerBlind _ s acts

-- SEND and RECV

theorem sendStep_callerBlind : CallerBlind sendStep := fun s acts => by
  refine mapNext_readReg fun frame => ?_
  rw [withCaller_sendAnswers]
  cases s.env.sendAnswers with
  | nil => rfl
  | cons a later => cases a <;> rfl

theorem answerReceive_withCaller (k : Kind) (a : RecvAnswer) (s : State) (acts : List CallerAct) :
    (answerReceive k a s).withCaller acts = answerReceive k a (s.withCaller acts) := by
  cases a with
  | connErr => rfl
  | ioErr => rfl
  | data r =>
    cases r with
    | nil => rfl
    | cons b r => cases k <;> rfl

theorem recvStep_callerBlind : CallerBlind recvStep := fun s acts => by
  refine mapNext_readReg fun k => ?_
  rw [withCaller_recvAnswers]
  cases s.env.recvAnswers with
  | nil => rfl
  | cons a later => exact congrArg Host.Outcome.next (answerReceive_withCaller k _ _ acts)

-- PARSE

theorem parseWithWidth_callerBlind (r : Bytes) (num : Byte) : CallerBlind (parseWithWidth r num) := fun s acts => by
  unfold parseWithWidth
  split
  · rfl
  · refine mapNext_readReg fun csv => ?_
    obtain ⟨regs, out, inside⟩ := parseOuter r num.toNat (deviceCount csv) none []
    cases inside <;> rfl

theorem parseResponse_callerBlind : CallerBlind parseResponse := fun s acts => by
  refine mapNext_readReg fun r => ?_
  split
  · exact parseWithWidth_callerBlind r _ s acts
  · rfl

-- Reset and the step

theorem abandonCommand_withCaller (s : State) (acts : List CallerAct) :
    abandonCommand (s.withCaller acts) = { abandonCommand s with caller := acts } := by
  simp only [abandonCommand, withCaller_phase, withCaller_frame]
  split <;> rfl

/-- A reset keeps the acts that wait (R351), and does not read them. -/
theorem takeReset_withCaller (s : State) (acts : List CallerAct) :
    (takeReset s).withCaller acts = takeReset (s.withCaller acts) := by
  simp only [takeReset, abandonCommand_withCaller]
  rfl

/-- Outside IDLE a step is blind to the acts that wait, be it a reset or the step of the phase (R75, R354). -/
theorem step_withCaller {s : State} (hp : s.phase ≠ .idle) (acts : List CallerAct) :
    mapNext (·.withCaller acts) (step s) = step (s.withCaller acts) := by
  cases hr : s.env.resetLine with
  | true =>
    rw [step_reset hr, step_reset (s := s.withCaller acts) hr, ← takeReset_withCaller]
    rfl
  | false =>
    rw [step_phase hr, step_phase (s := s.withCaller acts) hr, withCaller_phase]
    cases hs : s.phase with
    | idle => exact absurd hs hp
    | build => exact buildStep_callerBlind s acts
    | send => exact sendStep_callerBlind s acts
    | recv => exact recvStep_callerBlind s acts
    | parse => exact parseResponse_callerBlind s acts
    | done => rfl
    | fault => rfl

-- The descriptor

/-- The five descriptor registers hold the same in both states (R32). -/
def State.sameDescriptor (s t : State) : Prop :=
  t.family = s.family ∧ t.kindStr = s.kindStr ∧ t.dtypeStr = s.dtypeStr ∧ t.addrCsv = s.addrCsv ∧
    t.valCsv = s.valCsv

/-- Of the cases of a step only a reset, an act in IDLE and END write the descriptor (R75). -/
theorem step_keeps_descriptor {s t : State} (hr : s.env.resetLine = false) (hi : s.phase ≠ .idle)
    (hd : s.phase ≠ .done) (hf : s.phase ≠ .fault) (h : step s = .next t) : s.sameDescriptor t := by
  cases step_cases h with
  | reset hr' => exact absurd (hr.symm.trans hr') nofun
  | act hp _ => exact absurd hp hi
  | ended hp => exact (hp.elim hd hf).elim
  | form _ he =>
    obtain ⟨hdesc, -⟩ := formsKeepEveryOtherRegister _ _ _ he
    exact hdesc
  | @received k => cases k <;> exact ⟨rfl, rfl, rfl, rfl, rfl⟩
  | _ => exact ⟨rfl, rfl, rfl, rfl, rfl⟩

-- The obligation

/-- Settles O38: the frame by the cases of a step, and the noninterference phase by phase. -/
theorem descriptorIsLatched : Obligations.DescriptorIsLatched :=
  ⟨fun _ _ => step_keeps_descriptor,
    fun _ _ acts hp h => (step_withCaller hp acts).symm.trans (congrArg (mapNext _) h)⟩

end Sys2Proof.Machine
end

section
/-! The family of spec/30_encoding.md: the block decoder reads back exactly the encodings of the well-formed blocks
(R93, R94, R98), what the builder makes is such an encoding (R163, R183, R185), the frame's layout and its zero
fields (R90 to R92, R99), and the opcode map (R98). -/

namespace Sys2Proof.Machine

-- Bytes

theorem lo8_toNat (x : Nat) : (lo8 x).toNat = x % 256 := rfl

theorem lo8_toNat_self (b : Byte) : lo8 b.toNat = b :=
  BitVec.eq_of_toNat_eq (Nat.mod_eq_of_lt b.isLt)

/-- Two bytes are the little-endian spelling of the number that they hold (R62). -/
theorem leNat_pair_eq_iff {b0 b1 : Byte} {n : Nat} (hn : n < 65536) : leNat [b0, b1] = n ↔ [b0, b1] = le16 n := by
  have h0 := b0.isLt
  have h1 := b1.isLt
  simp only [leNat_cons, leNat_nil, le16, List.cons.injEq, and_true, ← BitVec.toNat_inj, lo8_toNat]
  omega

-- The head word

theorem opcode_lt (k : Kind) : opcode k < 65536 := by cases k <;> decide

theorem typeCode_lt (dt : DataType) : typeCode dt < 65536 := by cases dt <;> decide

theorem kindOfOpcode_eq_some_iff {op : Nat} {k : Kind} : kindOfOpcode op = some k ↔ op = opcode k := by
  constructor
  · intro h
    unfold kindOfOpcode at h
    split_ifs at h with hr hw <;> cases h
    · exact hr
    · exact hw
  · rintro rfl
    cases k <;> rfl

theorem dataTypeOfCode_eq_some_iff {code : Nat} {dt : DataType} :
    dataTypeOfCode code = some dt ↔ code = typeCode dt := by
  constructor
  · intro h
    unfold dataTypeOfCode at h
    split_ifs at h <;> cases h <;> assumption
  · rintro rfl
    cases dt <;> rfl

theorem formCodec : ∀ i, Laws.FormCodec.Statement i
  | .readBit => Laws.FormCodec.readBit
  | .readByte => Laws.FormCodec.readByte
  | .readWord => Laws.FormCodec.readWord
  | .readDword => Laws.FormCodec.readDword
  | .readLword => Laws.FormCodec.readLword
  | .readUnknown => Laws.FormCodec.readUnknown
  | .writeBit => Laws.FormCodec.writeBit
  | .writeByte => Laws.FormCodec.writeByte
  | .writeWord => Laws.FormCodec.writeWord
  | .writeDword => Laws.FormCodec.writeDword
  | .writeLword => Laws.FormCodec.writeLword
  | .writeUnknown => Laws.FormCodec.writeUnknown

theorem formOf_eq_iff {k : Kind} {dt : DataType} {i : Instr} :
    formOf k dt = i ↔ k = kindOf i ∧ dt = dataTypeOf i := by
  constructor
  · rintro rfl
    cases k <;> cases dt <;> exact ⟨rfl, rfl⟩
  · rintro ⟨rfl, rfl⟩
    exact (formCodec i).1

theorem decodeDescriptor_form (i : Instr) : decodeDescriptor (kindString i) (dataTypeString i) = some i :=
  (formCodec i).2.1

theorem encodeHead_eq (i : Instr) :
    encodeHead i = le16 (opcode (kindOf i)) ++ le16 (typeCode (dataTypeOf i)) :=
  (formCodec i).2.2

@[simp] theorem length_encodeHead (i : Instr) : (encodeHead i).length = 4 := rfl

/-- The head decoder accepts exactly the head bytes of a form (R93, R98). -/
theorem decodeHead_eq_ok_iff {b0 b1 b2 b3 : Byte} {i : Instr} :
    decodeHead b0 b1 b2 b3 = .ok i ↔ [b0, b1, b2, b3] = encodeHead i := by
  have hhead : [b0, b1, b2, b3] = encodeHead i ↔
      leNat [b0, b1] = opcode (kindOf i) ∧ leNat [b2, b3] = typeCode (dataTypeOf i) := by
    rw [leNat_pair_eq_iff (opcode_lt _), leNat_pair_eq_iff (typeCode_lt _), encodeHead_eq]
    simp [le16, and_assoc]
  rw [hhead, ← kindOfOpcode_eq_some_iff, ← dataTypeOfCode_eq_some_iff]
  unfold decodeHead
  cases kindOfOpcode (leNat [b0, b1]) with
  | none => simp
  | some k =>
    cases dataTypeOfCode (leNat [b2, b3]) with
    | none => simp
    | some dt => simp [formOf_eq_iff]

-- Device items

/-- A device is well formed when its class letter and its suffix spell a device token whose item length does not
wrap (R104, R353). -/
theorem device_wf_iff (d : Device) :
    d.wf = true ↔ isDeviceToken (d.letter :: d.suffix) = true ∧ d.suffix.length ≤ 252 := by
  simp [Device.wf, isDeviceToken]

/-- The suffix length that the item decoder takes from the length byte of a suffix that does not wrap it. -/
theorem itemLength_sub {n : Nat} (hn : n ≤ 252) : (lo8 (3 + n)).toNat - 3 = n := by
  rw [lo8_toNat]
  omega

/-- A length byte that announces a suffix of at least one byte is that of the suffix. -/
theorem itemLength_add {len : Byte} {n : Nat} (hn : n = len.toNat - 3) (h0 : 0 < n) : lo8 (3 + n) = len := by
  have := len.isLt
  apply BitVec.eq_of_toNat_eq
  rw [lo8_toNat]
  omega

theorem decodeItem_encodeItem_append (dt : DataType) {d : Device} (hd : d.wf = true) (rest : Bytes) :
    decodeItem dt (encodeItem dt d ++ rest) = .ok (d, rest) := by
  have hlen := itemLength_sub ((device_wf_iff d).mp hd).2
  simp [encodeItem, decodeItem, hlen, hd]

/-- What the item decoder reads is a well-formed device's item, and it leaves the bytes after it. -/
theorem eq_encodeItem_append_of_decodeItem {dt : DataType} {bs rest : Bytes} {d : Device}
    (h : decodeItem dt bs = .ok (d, rest)) : d.wf = true ∧ bs = encodeItem dt d ++ rest := by
  unfold decodeItem at h
  split at h
  · dsimp only at h
    rename_i len pad pct letter ty body
    split_ifs at h with hpad hpct hty hbody hwf
    cases h
    push Not at hpad hpct hty hbody
    subst hpad hpct hty
    have hn : (body.take (len.toNat - 3)).length = len.toNat - 3 := List.length_take_of_le hbody
    have hne : 0 < (body.take (len.toNat - 3)).length := by
      rw [List.length_pos_iff]
      rintro he
      simp [Device.wf, he] at hwf
    refine ⟨hwf, ?_⟩
    rw [encodeItem, itemLength_add hn hne]
    simp
  · cases h

theorem decodeItem_eq_ok_iff {dt : DataType} {bs rest : Bytes} {d : Device} :
    decodeItem dt bs = .ok (d, rest) ↔ d.wf = true ∧ bs = encodeItem dt d ++ rest :=
  ⟨eq_encodeItem_append_of_decodeItem, by rintro ⟨hd, rfl⟩; exact decodeItem_encodeItem_append dt hd rest⟩

/-- The items decoder accepts exactly the items of the given number of well-formed devices (R93, R94). -/
theorem decodeItems_eq_ok_iff {dt : DataType} {n : Nat} {bs rest : Bytes} {ds : List Device} :
    decodeItems dt n bs = .ok (ds, rest) ↔
      ds.length = n ∧ (∀ d ∈ ds, d.wf = true) ∧ bs = ds.flatMap (encodeItem dt) ++ rest := by
  induction n generalizing bs ds with
  | zero =>
    constructor
    · intro h
      cases h
      simp
    · rintro ⟨hl, -, rfl⟩
      rw [List.length_eq_zero_iff.mp hl]
      rfl
  | succ n ih =>
    constructor
    · intro h
      unfold decodeItems at h
      split at h
      · cases h
      · rename_i d rest' hd
        split at h
        · cases h
        · rename_i ds' rest'' hds
          cases h
          obtain ⟨hwf, rfl⟩ := decodeItem_eq_ok_iff.mp hd
          obtain ⟨hl, hwfs, rfl⟩ := ih.mp hds
          exact ⟨congrArg (· + 1) hl, List.forall_mem_cons.mpr ⟨hwf, hwfs⟩, by simp⟩
    · rintro ⟨hl, hwf, rfl⟩
      obtain ⟨d, ds, rfl⟩ := List.exists_cons_of_length_eq_add_one hl
      obtain ⟨hd, hds⟩ := List.forall_mem_cons.mp hwf
      have hitems := ih.mpr ⟨Nat.succ.inj hl, hds, rfl⟩
      rw [List.flatMap_cons, List.append_assoc]
      simp only [decodeItems, decodeItem_encodeItem_append dt hd, hitems]

-- Instruction blocks

theorem block_wf_iff (b : Block) :
    b.wf = true ↔ b.devices.length ≤ 255 ∧ (∀ d ∈ b.devices, d.wf = true) ∧
      (kindOf b.form = .read → b.payload = []) := by
  cases h : kindOf b.form <;> simp [Block.wf, h, and_assoc]

theorem decode_encode {b : Block} (hb : b.wf = true) : decode (encode b) = .ok b := by
  obtain ⟨hl, hwf, hpayload⟩ := (block_wf_iff b).mp hb
  have hcount : (lo8 b.devices.length).toNat = b.devices.length := by
    rw [lo8_toNat]
    omega
  have hhead := decodeHead_eq_ok_iff.mpr (encodeHead_eq b.form).symm
  have hitems := decodeItems_eq_ok_iff (dt := dataTypeOf b.form) (rest := b.payload) |>.mpr ⟨rfl, hwf, rfl⟩
  rw [encode, encodeHead_eq]
  simp only [le16, List.cons_append, List.nil_append, decode, hhead, hcount, hitems]
  simpa using hpayload

theorem wf_and_encode_eq_of_decode {bs : Bytes} {b : Block} (h : decode bs = .ok b) :
    b.wf = true ∧ encode b = bs := by
  unfold decode at h
  split at h
  · rename_i b0 b1 b2 b3 b4 b5 count b7 rest
    split at h
    · cases h
    · rename_i form hform
      split_ifs at h with hres
      push Not at hres
      obtain ⟨rfl, rfl, rfl⟩ := hres
      split at h
      · cases h
      · rename_i ds payload hitems
        split_ifs at h with hread
        cases h
        obtain ⟨hl, hwf, rfl⟩ := decodeItems_eq_ok_iff.mp hitems
        have hcount : lo8 ds.length = count := by rw [hl, lo8_toNat_self]
        refine ⟨(block_wf_iff _).mpr ⟨hl.trans_le (Nat.le_of_lt_succ count.isLt), hwf, ?_⟩, ?_⟩
        · simpa using hread
        · simp [encode, ← decodeHead_eq_ok_iff.mp hform, hcount]
  · cases h

-- The tokens and what is built of them

/-- The check passes exactly the lists of device tokens (R162). -/
theorem checkTokensFrom_eq_none_iff (k : Nat) (tokens : List Bytes) :
    checkTokensFrom k tokens = none ↔ ∀ t ∈ tokens, isDeviceToken t = true := by
  induction tokens generalizing k with
  | nil => simp [checkTokensFrom]
  | cons t ts ih =>
    rw [List.forall_mem_cons, ← ih (k + 1), checkTokensFrom]
    split_ifs with hempty htoken
    · simp [hempty, isDeviceToken]
    · simp [htoken]
    · simp [htoken]

theorem checkTokens_eq_none_iff (tokens : List Bytes) :
    checkTokens tokens = none ↔ ∀ t ∈ tokens, isDeviceToken t = true :=
  checkTokensFrom_eq_none_iff 0 tokens

theorem tokenDevice_wf {t : Bytes} (ht : isDeviceToken t = true) (hl : t.length ≤ 253) :
    (tokenDevice t).wf = true := by
  cases t with
  | nil => cases ht
  | cons c suffix => exact (device_wf_iff _).mpr ⟨ht, Nat.le_of_succ_le_succ hl⟩

theorem length_symbol (dt : DataType) (t : Bytes) : (symbol dt t).length = 2 + t.length := by
  cases t with
  | nil => rfl
  | cons c suffix => simp only [symbol, List.length_cons]; omega

/-- The symbol encoder's item of a token is the item of the token as a device (R94, R161, R183). -/
theorem item_eq_encodeItem (dt : DataType) {t : Bytes} (ht : isDeviceToken t = true) :
    item dt t = encodeItem dt (tokenDevice t) := by
  cases t with
  | nil => cases ht
  | cons c suffix =>
    have hlen : (symbol dt (c :: suffix)).length = 3 + suffix.length := by
      rw [length_symbol, List.length_cons]
      omega
    rw [item, hlen]
    rfl

theorem length_item (dt : DataType) (t : Bytes) : (item dt t).length = 4 + t.length := by
  simp only [item, memAppend_eq, List.length_append, length_symbol, List.length_cons, List.length_nil]
  omega

theorem length_flatMap_item (dt : DataType) (tokens : List Bytes) :
    (tokens.flatMap (item dt)).length = (tokens.map fun tok => 4 + tok.length).sum := by
  simp [List.length_flatMap, length_item]

/-- Skipping the first items of a block leaves those of the other tokens. -/
theorem drop_flatMap_item (dt : DataType) (tokens : List Bytes) (n : Nat) (rest : Bytes) :
    (tokens.flatMap (item dt) ++ rest).drop ((tokens.take n).map fun tok => 4 + tok.length).sum =
      (tokens.drop n).flatMap (item dt) ++ rest := by
  conv_lhs => enter [2]; rw [← List.take_append_drop n tokens, List.flatMap_append, List.append_assoc]
  exact List.drop_left' (length_flatMap_item dt _)

/-- The pad byte of an item is its second byte (R94). -/
theorem itemPad_eq_zero (dt : DataType) {tokens : List Bytes} {n : Nat} (hn : n < tokens.length) (rest : Bytes) :
    (tokens.flatMap (item dt) ++ rest)[((tokens.take n).map fun tok => 4 + tok.length).sum + 1]? =
      some (0 : Byte) := by
  rw [← List.getElem?_drop, drop_flatMap_item, List.drop_eq_getElem_cons hn]
  rfl

/-- The instruction block of a form with a value payload after its items (R182, R185). -/
def formBlock (i : Instr) (tokens : List Bytes) (payload : Bytes) : Bytes :=
  instructionBlock (kindOf i) (dataTypeOf i) tokens ++ payload

theorem formBlock_eq (i : Instr) (tokens : List Bytes) (payload : Bytes) :
    formBlock i tokens payload = encodeHead i ++ [0x00, 0x00, lo8 tokens.length, 0x00] ++
      (tokens.flatMap (item (dataTypeOf i)) ++ payload) := by
  simp [formBlock, instructionBlock, countField, encodeHead_eq]

/-- What a form builds of device tokens is the encoding of its block (R93, R163). -/
theorem formBlock_eq_encode (i : Instr) {tokens : List Bytes} (ht : ∀ t ∈ tokens, isDeviceToken t = true)
    (payload : Bytes) : formBlock i tokens payload = encode ⟨i, tokens.map tokenDevice, payload⟩ := by
  have hitems : tokens.flatMap (item (dataTypeOf i)) =
      (tokens.map tokenDevice).flatMap (encodeItem (dataTypeOf i)) := by
    rw [List.flatMap_map]
    exact List.flatMap_congr fun t h => item_eq_encodeItem _ (ht t h)
  simp [formBlock_eq, encode, hitems]

/-- What a form builds within the bounds that no length byte wraps is read back (R353). -/
theorem decode_formBlock (i : Instr) {tokens : List Bytes} {payload : Bytes}
    (ht : ∀ t ∈ tokens, isDeviceToken t = true) (hl : tokens.length ≤ 255) (htl : ∀ t ∈ tokens, t.length ≤ 253)
    (hp : kindOf i = .read → payload = []) :
    decode (formBlock i tokens payload) = .ok ⟨i, tokens.map tokenDevice, payload⟩ := by
  rw [formBlock_eq_encode i ht]
  refine decode_encode ((block_wf_iff _).mpr ⟨by simpa using hl, ?_, hp⟩)
  exact List.forall_mem_map.mpr fun t h => tokenDevice_wf (ht t h) (htl t h)

-- The frame

@[simp] theorem length_headerBytes (lsis : Bool) : (headerBytes lsis).length = 16 := by cases lsis <;> rfl

theorem buildHeader_eq (lsis : Bool) : buildHeader lsis = headerBytes lsis := by cases lsis <;> decide

theorem familyLsis_eq (family : Bytes) :
    familyLsis family = decide (family = [0x58, 0x47, 0x54] ∨ family = [0x58, 0x47, 0x42]) :=
  (Bool.decide_or ..).symm

/-- The trailer of the header: the low byte of the block's length, a pad and two reserved bytes (R92). -/
theorem patchHeader_buildHeader (lsis : Bool) (n : Nat) :
    patchHeader (buildHeader lsis) n = headerBytes lsis ++ [lo8 n, 0x00, 0x00, 0x00] := by
  rw [patchHeader, buildHeader_eq, memAppend_eq]

theorem length_patchHeader (lsis : Bool) (n : Nat) : (patchHeader (buildHeader lsis) n).length = 20 := by
  simp [patchHeader_buildHeader]

theorem requestFrame_eq (lsis : Bool) (ibuf : Bytes) :
    requestFrame lsis ibuf = patchHeader (buildHeader lsis) ibuf.length ++ ibuf := rfl

theorem take_requestFrame (lsis : Bool) (ibuf : Bytes) :
    (requestFrame lsis ibuf).take 20 = patchHeader (buildHeader lsis) ibuf.length :=
  List.take_left' (length_patchHeader lsis _)

theorem drop_requestFrame (lsis : Bool) (ibuf : Bytes) : (requestFrame lsis ibuf).drop 20 = ibuf :=
  List.drop_left' (length_patchHeader lsis _)

/-- The zero bytes of the header and of its trailer (R91, R92, R99). -/
theorem requestFrame_header_zero (lsis : Bool) (ibuf : Bytes) :
    ∀ k ∈ [10, 11, 12, 14, 15, 17, 18, 19], (requestFrame lsis ibuf)[k]? = some (0 : Byte) := by
  rw [requestFrame_eq, patchHeader_buildHeader]
  cases lsis <;> simp [headerBytes]

/-- The zero bytes of the fixed part of an instruction block (R93, R99). -/
theorem formBlock_reserved_zero (i : Instr) (tokens : List Bytes) (payload : Bytes) :
    ∀ k ∈ [4, 5, 7], (formBlock i tokens payload)[k]? = some (0 : Byte) := by
  simp [formBlock_eq, encodeHead_eq, le16]

theorem take_formBlock (i : Instr) (tokens : List Bytes) (payload : Bytes) :
    (formBlock i tokens payload).take 4 = encodeHead i := by
  rw [formBlock_eq, List.append_assoc]
  exact List.take_left' (length_encodeHead i)

theorem drop_formBlock (i : Instr) (tokens : List Bytes) (payload : Bytes) :
    (formBlock i tokens payload).drop 8 = tokens.flatMap (item (dataTypeOf i)) ++ payload := by
  rw [formBlock_eq]
  exact List.drop_left' rfl

theorem requestFrame_formBlock_reserved_zero (lsis : Bool) (i : Instr) (tokens : List Bytes) (payload : Bytes) :
    ∀ k ∈ [20 + 4, 20 + 5, 20 + 7], (requestFrame lsis (formBlock i tokens payload))[k]? = some (0 : Byte) := by
  have hblock := formBlock_reserved_zero i tokens payload
  rw [← drop_requestFrame lsis (formBlock i tokens payload)] at hblock
  simpa using hblock

/-- The items of a form's block begin at offset 28 of its frame (R90, R93). -/
theorem drop_requestFrame_formBlock (lsis : Bool) (i : Instr) (tokens : List Bytes) (payload : Bytes) :
    (requestFrame lsis (formBlock i tokens payload)).drop (20 + 8) =
      tokens.flatMap (item (dataTypeOf i)) ++ payload := by
  rw [← List.drop_drop, drop_requestFrame, drop_formBlock]

/-- What a form that goes to SEND has read and written: the device tokens passed the check, IBUF is the form's block
with its payload, and HBUF and FRAME are those of the family and of that block (R182, R185, R186, R233 to R235). -/
structure Built (i : Instr) (s t : State) (csv family payload : Bytes) : Prop where
  reads_addrCsv : s.addrCsv = some csv
  reads_family : s.family = some family
  tokens : ∀ tok ∈ split csv, isDeviceToken tok = true
  ibuf : t.ibuf = some (formBlock i (split csv) payload)
  hbuf : t.hbuf = some (patchHeader (buildHeader (familyLsis family)) (formBlock i (split csv) payload).length)
  frame : t.frame = some (requestFrame (familyLsis family) (formBlock i (split csv) payload))
  payload_of_read : kindOf i = .read → payload = []
  vbuf_of_write : kindOf i = .write → t.vbuf = some payload

theorem exec_send {i : Instr} {s t : State} (h : exec i s = .next t) (hp : t.phase = .send) :
    ∃ csv family payload, Built i s t csv family payload := by
  rw [exec_eq] at h
  cases hk : kindOf i with
  | read =>
    rw [hk] at h
    obtain ⟨csv, hcsv, ⟨e, -, rfl⟩ | ⟨hcheck, family, hf, rfl⟩⟩ := buildRead_next h
    · cases hp
    · refine ⟨csv, family, [], hcsv, hf, (checkTokens_eq_none_iff _).mp hcheck, ?_, ?_, ?_, fun _ => rfl, ?_⟩ <;>
        simp [formBlock, hk]
  | write =>
    rw [hk] at h
    obtain ⟨csv, hcsv, ⟨e, -, rfl⟩ | ⟨hcheck, vals, -, ⟨e, -, rfl⟩ | ⟨-, family, hf, rfl⟩⟩⟩ := buildWrite_next h
    · cases hp
    · cases hp
    · refine ⟨csv, family, _, hcsv, hf, (checkTokens_eq_none_iff _).mp hcheck, ?_, ?_, ?_, ?_, fun _ => rfl⟩ <;>
        simp [formBlock, hk]

-- The opcode map

/-- The table word of a form is the block of the form with no device and no payload. -/
theorem tableWordBytes_headWord (i : Instr) : tableWordBytes 32 (headWord i).toNat = encode ⟨i, [], []⟩ := by
  cases i <;> decide

theorem decodeTableWord_headWord (i : Instr) : decodeTableWord 32 (headWord i).toNat = some i := by
  have hwf : (Block.mk i [] []).wf = true := (block_wf_iff _).mpr ⟨Nat.zero_le _, nofun, fun _ => rfl⟩
  rw [decodeTableWord, tableWordBytes_headWord, decode_encode hwf]

theorem buildStep_of_decodeDescriptor {s : State} {kindStr dtypeStr : Bytes} {i : Instr}
    (hk : s.kindStr = some kindStr) (hd : s.dtypeStr = some dtypeStr)
    (h : decodeDescriptor kindStr dtypeStr = some i) : buildStep s = exec i s := by
  obtain ⟨k, hkind, rfl⟩ := Option.map_eq_some_iff.mp h
  simp [buildStep, hk, hd, hkind]

-- The obligations

/-- Settles O1: within the bounds of a well-formed block no count or length byte wraps, and each part is read back. -/
theorem decodeEncodeRoundTrip : Obligations.DecodeEncodeRoundTrip := fun _ => decode_encode

/-- Settles O2: each check of the decoder fixes bytes of the encoding. -/
theorem decodedBytesAreTheEncoding : Obligations.DecodedBytesAreTheEncoding := fun _ _ => wf_and_encode_eq_of_decode

/-- Settles O5: the block that a form builds is the encoding of a well-formed block. -/
theorem builtBlockDecodesToItsForm : Obligations.BuiltBlockDecodesToItsForm := by
  intro i s t csv hcsv h hp hl htl
  obtain ⟨csv', family, payload, hb⟩ := exec_send h hp
  cases hcsv.symm.trans hb.reads_addrCsv
  have hdec := decode_formBlock i hb.tokens hl htl hb.payload_of_read
  refine ⟨_, hb.ibuf, ?_⟩
  cases hk : kindOf i with
  | read =>
    cases hb.payload_of_read hk
    exact hdec
  | write => exact ⟨payload, hb.vbuf_of_write hk, hdec⟩

/-- Settles O28: the frame is the 16 header bytes, the 4 bytes of the trailer and the block. -/
theorem frameLayout : Obligations.FrameLayout := by
  intro i s t family hf h hp
  obtain ⟨csv, family', payload, hb⟩ := exec_send h hp
  cases hf.symm.trans hb.reads_family
  refine ⟨_, _, hb.ibuf, hb.frame, ?_, ?_, ?_, drop_requestFrame _ _, ?_⟩
  · simp [requestFrame_eq, length_patchHeader]
  · simp [requestFrame_eq, patchHeader_buildHeader, familyLsis_eq]
  · simp [requestFrame_eq, patchHeader_buildHeader]
  · rw [take_requestFrame]
    exact hb.hbuf

/-- Settles O29: the zero bytes of the header, of the block's fixed part, and of each item. -/
theorem reservedFieldsAreZero : Obligations.ReservedFieldsAreZero := by
  intro i s t csv hcsv h hp
  obtain ⟨csv', family, payload, hb⟩ := exec_send h hp
  cases hcsv.symm.trans hb.reads_addrCsv
  have hheader := requestFrame_header_zero (familyLsis family) (formBlock i (split csv) payload)
  have hblock := requestFrame_formBlock_reserved_zero (familyLsis family) i (split csv) payload
  refine ⟨_, hb.frame, ?_, ?_, fun n hn => ?_⟩
  · exact List.forall_mem_append.mpr ⟨hheader, hblock⟩
  · rw [drop_requestFrame, take_formBlock]
  · rw [Nat.add_assoc, ← List.getElem?_drop, drop_requestFrame_formBlock]
    exact itemPad_eq_zero (dataTypeOf i) hn payload

/-- Settles O3, form by form. -/
theorem headWordHoldsOpcodeAndTypeCode : Obligations.HeadWordHoldsOpcodeAndTypeCode := by
  intro i
  cases i <;> decide

/-- Settles O4: the words of the map are the head words of the forms. -/
theorem opcodeMapWordsDecode : Obligations.OpcodeMapWordsDecode :=
  ⟨decodeTableWord_headWord .readBit, decodeTableWord_headWord .readByte, decodeTableWord_headWord .readWord,
    decodeTableWord_headWord .readDword, decodeTableWord_headWord .readLword, decodeTableWord_headWord .readUnknown,
    decodeTableWord_headWord .writeBit, decodeTableWord_headWord .writeByte, decodeTableWord_headWord .writeWord,
    decodeTableWord_headWord .writeDword, decodeTableWord_headWord .writeLword,
    decodeTableWord_headWord .writeUnknown⟩

/-- Settles O9: the strings that a placed word stands for select its form. -/
theorem placedWordRunsItsForm : Obligations.PlacedWordRunsItsForm := by
  intro s i
  have hstep : step (s.withFetchWord 32 (headWord i).toNat) = buildStep (s.withFetchWord 32 (headWord i).toNat) :=
    step_phase rfl
  rw [hstep]
  refine buildStep_of_decodeDescriptor (kindStr := kindString i) (dtypeStr := dataTypeString i) ?_ ?_
    (decodeDescriptor_form i) <;>
  simp [State.withFetchWord, commandOfWord, decodeTableWord_headWord, commandOf]

end Sys2Proof.Machine
end

section
/-! The family of spec/41_value_codec.md: the parse of a value token (R133), the nibble-reorder transform in closed form
and its block lengths (R134 to R137), and the encoders of the six data types (R131, R138 to R142). -/

namespace Sys2Proof.Machine

-- The parse of a value token

theorem decimalValue_eq_sum (tok : Bytes) :
    decimalValue tok = ∑ k : Fin tok.length, (tok[k].toNat - 0x30) * 10 ^ (tok.length - 1 - k) := by
  induction tok with
  | nil => rfl
  | cons d ds ih =>
    refine Eq.trans ?_ (Fin.sum_univ_succ (n := ds.length) _).symm
    simp [decimalValue, ih, Nat.sub_sub, Nat.add_comm]

theorem all_isDigit_iff (tok : Bytes) : tok.all isDigit = true ↔ ∀ d ∈ tok, 0x30 ≤ d.toNat ∧ d.toNat ≤ 0x39 := by
  simp [isDigit]

/-- What the parse accepts (R133, D6). -/
def isValueToken (tok : Bytes) : Prop := tok ≠ [] ∧ tok.all isDigit = true ∧ decimalValue tok ≤ Config.valueMax

theorem parseU64_of_isValueToken {tok : Bytes} (h : isValueToken tok) (pos : Nat) :
    parseU64 tok pos = .ok (BitVec.ofNat 64 (decimalValue tok)) := by
  obtain ⟨hne, hall, hle⟩ := h
  simp [parseU64, hne, hall, Nat.not_lt.mpr hle]

theorem parseU64_of_not_isValueToken {tok : Bytes} (h : ¬ isValueToken tok) (pos : Nat) :
    parseU64 tok pos = .error ⟨.badValueToken, .position pos⟩ := by
  unfold parseU64
  split
  · rfl
  next hshape =>
    obtain ⟨hne, hall⟩ := not_or.mp hshape
    rw [if_pos (Nat.lt_of_not_le fun hle => h ⟨hne, Bool.of_not_eq_false hall, hle⟩)]

theorem isValueToken_iff (tok : Bytes) :
    isValueToken tok ↔ tok ≠ [] ∧ (∀ d ∈ tok, 0x30 ≤ d.toNat ∧ d.toNat ≤ 0x39) ∧
      (∑ k : Fin tok.length, (tok[k].toNat - 0x30) * 10 ^ (tok.length - 1 - k)) ≤ 2 ^ 64 - 1 := by
  rw [isValueToken, all_isDigit_iff, decimalValue_eq_sum, Config.valueMax]

-- Hex images

/-- The `digits` least significant hex digits of `v`, most significant first: `hexr` and the padding of R134 make such
an image. -/
def hexImage : Nat → Nat → Bytes
  | 0, _ => []
  | digits + 1, v => hexImage digits (v / 16) ++ [hexDigit (v % 16)]

@[simp] theorem length_hexImage (digits v : Nat) : (hexImage digits v).length = digits := by
  induction digits generalizing v with
  | zero => rfl
  | succ digits ih => simp [hexImage, ih]

theorem hexImage_zero (digits : Nat) : hexImage digits 0 = List.replicate digits zeroChar := by
  induction digits with
  | zero => rfl
  | succ digits ih =>
    rw [hexImage, Nat.zero_div, ih, List.replicate_succ']
    rfl

/-- Zeros on the left are digits of the image. -/
theorem replicate_append_hexImage (zeros : Nat) {digits v : Nat} (hv : v < 16 ^ digits) :
    List.replicate zeros zeroChar ++ hexImage digits v = hexImage (digits + zeros) v := by
  induction digits generalizing v with
  | zero =>
    obtain rfl : v = 0 := by simpa using hv
    rw [Nat.zero_add, hexImage_zero zeros, hexImage, List.append_nil]
  | succ digits ih =>
    rw [Nat.add_right_comm, hexImage, hexImage, ← ih (Nat.div_lt_of_lt_mul (by rwa [pow_succ'] at hv)),
      List.append_assoc]

/-- The shortest spelling is the image with one digit more than the logarithm (R137). -/
theorem hexSpell_eq_hexImage {digits v : Nat} (hd : 0 < digits) (hv : v < 16 ^ digits) :
    hexSpell digits v = hexImage (Nat.log 16 v + 1) v := by
  induction digits generalizing v with
  | zero => omega
  | succ digits ih =>
    by_cases h16 : v < 16
    · simp [hexSpell, h16, Nat.log_of_lt h16, hexImage, Nat.mod_eq_of_lt h16]
    · have hpos : 0 < digits := Nat.pos_of_ne_zero fun h0 => h16 (by simpa [h0] using hv)
      have hlog : Nat.log 16 (v / 16) + 1 = Nat.log 16 v := by
        rw [Nat.log_div_base, Nat.sub_add_cancel (Nat.log_pos (by decide) (by omega))]
      rw [hexSpell, if_neg h16, ih hpos (Nat.div_lt_of_lt_mul (by rwa [pow_succ'] at hv)), hlog, hexImage]

/-- The number of bytes of a value, at least 1 (R135). -/
def valueBytes (v : U64) : Nat := max 1 ((Nat.size v.toNat + 7) / 8)

theorem valueBytes_pos (v : U64) : 0 < valueBytes v := Nat.le_max_left ..

theorem valueBytes_le_iff {k : Nat} (hk : 0 < k) (v : U64) : valueBytes v ≤ k ↔ v.toNat < 2 ^ (8 * k) := by
  rw [← Nat.size_le, valueBytes]
  omega

theorem valueBytes_le_eight (v : U64) : valueBytes v ≤ 8 := (valueBytes_le_iff (by decide) v).mpr v.isLt

/-- The shortest spelling, made even, has two digits a byte. -/
theorem log_succ_roundUp_eq (v : U64) : (Nat.log 16 v.toNat + 2) / 2 = valueBytes v := by
  have hlog : ∀ k ≠ 0, Nat.log 16 v.toNat < k ↔ Nat.size v.toNat ≤ 4 * k := fun k hk => by
    rw [Nat.size_le, pow_mul]
    exact ⟨Nat.lt_pow_of_log_lt (by decide), Nat.log_lt_of_lt_pow' hk⟩
  have hlow := hlog (2 * (valueBytes v - 1))
  have hhigh := hlog (2 * valueBytes v)
  unfold valueBytes at *
  omega

theorem hexr_eq_hexImage (v : U64) : hexr v = hexImage (2 * valueBytes v) v.toNat := by
  have hlt : v.toNat < 16 ^ (Nat.log 16 v.toNat + 1) := Nat.lt_pow_succ_log_self (by decide) _
  have hround := log_succ_roundUp_eq v
  simp only [hexr, hexSpell_eq_hexImage (by decide : 0 < 16) (show v.toNat < 16 ^ 16 from v.isLt), length_hexImage]
  split
  · rw [show 2 * valueBytes v = Nat.log 16 v.toNat + 1 + 1 by omega, ← replicate_append_hexImage 1 hlt]
    rfl
  · rw [show 2 * valueBytes v = Nat.log 16 v.toNat + 1 by omega]

/-- The byte length of the padded image: the value's bytes rounded up to a multiple of G/2 (R135). -/
def imageBytes (g : Nat) (v : U64) : Nat := (valueBytes v + g / 2 - 1) / (g / 2) * (g / 2)

/-- A group width of the descriptor table or of the OPEN parameter (R36, R138). -/
def isGroupWidth (g : Nat) : Prop := g = 2 ∨ g = 4 ∨ g = 8 ∨ g = 16

theorem isGroupWidth_two : isGroupWidth 2 := .inl rfl

theorem isGroupWidth_four : isGroupWidth 4 := .inr (.inl rfl)

theorem isGroupWidth_eight : isGroupWidth 8 := .inr (.inr (.inl rfl))

theorem isGroupWidth_sixteen : isGroupWidth 16 := .inr (.inr (.inr rfl))

theorem padLeft_hexr {g : Nat} (hg : isGroupWidth g) (v : U64) :
    padLeft g (hexr v) = hexImage (2 * imageBytes g v) v.toNat := by
  have hlt : v.toNat < 16 ^ (2 * valueBytes v) := by
    have h := (valueBytes_le_iff (valueBytes_pos v) v).mp le_rfl
    rwa [show 8 * valueBytes v = 4 * (2 * valueBytes v) by omega, pow_mul] at h
  have hlen : 2 * imageBytes g v = 2 * valueBytes v + (g - 2 * valueBytes v % g) % g := by
    unfold imageBytes
    obtain rfl | rfl | rfl | rfl := hg <;> omega
  rw [padLeft, hexr_eq_hexImage, length_hexImage, replicate_append_hexImage _ hlt, hlen]

-- The scan

theorem hexValue_hexDigit {n : Nat} (hn : n < 16) : hexValue (hexDigit n) = n := by
  revert n
  decide

/-- Two hex digits of a number are its low byte (R137). -/
theorem lo8_hexValue_pair (w : Nat) :
    lo8 (16 * hexValue (hexDigit (w / 16 % 16)) + hexValue (hexDigit (w % 16))) = lo8 w := by
  rw [hexValue_hexDigit (Nat.mod_lt _ (by decide)), hexValue_hexDigit (Nat.mod_lt _ (by decide))]
  apply BitVec.eq_of_toNat_eq
  simp only [lo8_toNat]
  omega

theorem hexImage_add_four (digits v : Nat) :
    hexImage (digits + 4) v = hexImage digits (v / 256 / 256) ++
      [hexDigit (v / 256 / 16 % 16), hexDigit (v / 256 % 16), hexDigit (v / 16 % 16), hexDigit (v % 16)] := by
  simp [hexImage, Nat.div_div_eq_div_mul]

theorem charAt_append (p q : Bytes) (k : Nat) : charAt (p ++ q) ((p.length : Int) + k) = q.getD k zeroChar := by
  rw [charAt, show ((p.length : Int) + k).toNat = p.length + k by omega, List.getD_append_right _ _ _ _ (by omega),
    Nat.add_sub_cancel_left]

/-- One pass of the scan swaps the two bytes of the last four characters and leaves the characters before them to the
later passes (R134 step (4)). -/
theorem reorderScan_append_four (p rest : Bytes) (a b c d : Byte) (fuel : Nat) :
    reorderScan (p ++ (a :: b :: c :: d :: rest)) (fuel + 1) ((p.length : Int) + 1) =
      c :: d :: a :: b :: reorderScan (p ++ (a :: b :: c :: d :: rest)) fuel ((p.length : Int) - 3) := by
  have hchar := charAt_append p (a :: b :: c :: d :: rest)
  rw [reorderScan, if_pos (by omega), show (p.length : Int) + 1 - 4 = p.length - 3 by omega,
    show (p.length : Int) + 1 + 1 = p.length + (2 : Nat) by omega,
    show (p.length : Int) + 1 + 2 = p.length + (3 : Nat) by omega,
    show (p.length : Int) + 1 - 1 = p.length + (0 : Nat) by omega,
    show (p.length : Int) + 1 = p.length + (1 : Nat) by omega]
  simp only [hchar]
  rfl

/-- The `k` least significant bytes of `v`, least significant first. -/
def lowBytes (k v : Nat) : Bytes := (List.range k).map fun m => lo8 (v / 256 ^ m)

@[simp] theorem length_lowBytes (k v : Nat) : (lowBytes k v).length = k := by simp [lowBytes]

theorem lowBytes_succ (k v : Nat) : lowBytes (k + 1) v = lo8 v :: lowBytes k (v / 256) := by
  simp [lowBytes, List.range_succ_eq_map, Nat.div_div_eq_div_mul, pow_succ']

/-- The scan over an image of `n` bytes gives the bytes two by two from the low end, and drops the top byte of an odd
image (R135). What stands behind the image is not read. -/
theorem hex2bytes_reorderScan_hexImage (n v : Nat) {fuel : Nat} (hf : n ≤ fuel) (rest : Bytes) :
    hex2bytes (reorderScan (hexImage (2 * n) v ++ rest) fuel ((2 * n : Nat) - 3)) = lowBytes (2 * (n / 2)) v := by
  induction n using Nat.twoStepInduction generalizing v fuel rest with
  | zero => cases fuel <;> simp [reorderScan, hex2bytes, lowBytes]
  | one => cases fuel <;> simp [reorderScan, hex2bytes, lowBytes]
  | more n ih _ =>
    obtain ⟨fuel, rfl⟩ : ∃ f, fuel = f + 1 := ⟨fuel - 1, by omega⟩
    have hpass := reorderScan_append_four (hexImage (2 * n) (v / 256 / 256)) rest (hexDigit (v / 256 / 16 % 16))
      (hexDigit (v / 256 % 16)) (hexDigit (v / 16 % 16)) (hexDigit (v % 16)) fuel
    have htail := ih (v / 256 / 256) (by omega : n ≤ fuel) (hexDigit (v / 256 / 16 % 16) :: hexDigit (v / 256 % 16) ::
      hexDigit (v / 16 % 16) :: hexDigit (v % 16) :: rest)
    rw [length_hexImage] at hpass
    rw [show 2 * (n + 2) = 2 * n + 4 by omega, hexImage_add_four, List.append_assoc,
      show ((2 * n + 4 : Nat) : Int) - 3 = (2 * n : Nat) + 1 by omega,
      show 2 * ((n + 2) / 2) = 2 * (n / 2) + 1 + 1 by omega, lowBytes_succ, lowBytes_succ]
    simp only [List.cons_append, List.nil_append, hpass, hex2bytes, htail, lo8_hexValue_pair]

/-- R135's closed form. -/
theorem hexBlock_eq {g : Nat} (hg : isGroupWidth g) (v : U64) :
    hexBlock g v = [0x20, 0x00] ++ lowBytes (2 * (imageBytes g v / 2)) v.toNat := by
  have hscan := hex2bytes_reorderScan_hexImage (imageBytes g v) v.toNat (by omega : _ ≤ 2 * imageBytes g v) []
  rw [List.append_nil] at hscan
  rw [hexBlock, reorder, padLeft_hexr hg, length_hexImage, ← hscan]
  rfl

-- The block of each group width

theorem length_hexBlock {g : Nat} (hg : isGroupWidth g) (v : U64) :
    (hexBlock g v).length = 2 + 2 * (imageBytes g v / 2) := by
  rw [hexBlock_eq hg, List.length_append, length_lowBytes]
  rfl

theorem imageBytes_of_valueBytes_le {g : Nat} (hg : isGroupWidth g) {v : U64} (hv : valueBytes v ≤ g / 2) :
    imageBytes g v = g / 2 := by
  have hpos := valueBytes_pos v
  unfold imageBytes
  obtain rfl | rfl | rfl | rfl := hg <;> omega

/-- A value within the group width fills one group (R139 to R142). -/
theorem hexBlock_of_inWidth {g : Nat} (hg : isGroupWidth g) {v : U64} (hv : v.toNat < 2 ^ (8 * (g / 2))) :
    hexBlock g v = [0x20, 0x00] ++ lowBytes (2 * (g / 2 / 2)) v.toNat := by
  have hpos : 0 < g / 2 := by obtain rfl | rfl | rfl | rfl := hg <;> decide
  rw [hexBlock_eq hg, imageBytes_of_valueBytes_le hg ((valueBytes_le_iff hpos v).mpr hv)]

theorem lo8_div_pow (v : U64) (m : Nat) : lo8 (v.toNat / 256 ^ m) = v.extractLsb' (8 * m) 8 := by
  apply BitVec.eq_of_toNat_eq
  rw [BitVec.extractLsb'_toNat, Nat.shiftRight_eq_div_pow, pow_mul]
  rfl

theorem lowBytes_eq_extractLsb' (k : Nat) (v : U64) :
    lowBytes k v.toNat = (List.range k).map fun m => v.extractLsb' (8 * m) 8 := by
  simp [lowBytes, lo8_div_pow]

-- The encoders

theorem encodeHex_of_ok {tok : Bytes} {pos : Nat} {v : U64} (h : parseU64 tok pos = .ok v) (g : Nat) :
    encodeHex g tok pos = .ok (hexBlock g v) := by
  simp [encodeHex, h]

theorem encodeHex_of_error {tok : Bytes} {pos : Nat} {e : Raise} (h : parseU64 tok pos = .error e) (g : Nat) :
    encodeHex g tok pos = .error e := by
  simp [encodeHex, h]

theorem encodeUnknown_of_error {tok : Bytes} {pos : Nat} {e : Raise} (h : parseU64 tok pos = .error e) {g : GUnknown}
    (hg : g ≠ .fault) : encodeUnknown g tok pos = .error e := by
  cases g with
  | fault => exact absurd rfl hg
  | width2 | width4 | width8 | width16 => exact encodeHex_of_error h _

/-- A value list of blank segments alone encodes to nothing, for every data type (R186). -/
theorem encodeValuesFrom_of_blank (dt : DataType) (pos : Nat) {segs : List Bytes} (h : ∀ seg ∈ segs, seg = []) :
    encodeValuesFrom dt pos segs = ([], none) := by
  induction segs generalizing pos with
  | nil => rfl
  | cons seg segs ih =>
    obtain ⟨rfl, hsegs⟩ := List.forall_mem_cons.mp h
    exact ih (pos + 1) hsegs

-- The obligations

/-- Settles O12: the sum is `decimalValue`, and `isValueToken` says which tokens parse. -/
theorem parseAcceptsExactlyDecimalU64 : Obligations.ParseAcceptsExactlyDecimalU64 := by
  intro tok pos
  rw [← isValueToken_iff, ← decimalValue_eq_sum]
  refine ⟨fun h => ⟨_, parseU64_of_isValueToken h pos, ?_⟩, fun h => parseU64_of_not_isValueToken h pos⟩
  obtain ⟨-, -, hle⟩ := h
  exact Nat.mod_eq_of_lt (Nat.lt_succ_of_le hle)

/-- Settles O14, by the scan over the padded image. -/
theorem reorderClosedForm : Obligations.ReorderClosedForm := by
  rintro g v _ _ hg rfl rfl
  exact hexBlock_eq hg v

/-- Settles O15: each row bounds the number of bytes of its values, which gives the image's length. -/
theorem valueBlockLengths : Obligations.ValueBlockLengths := by
  intro v
  have hpos := valueBytes_pos v
  have h8 := valueBytes_le_eight v
  have h1 := valueBytes_le_iff (k := 1) (by decide) v
  have h2 := valueBytes_le_iff (k := 2) (by decide) v
  have h3 := valueBytes_le_iff (k := 3) (by decide) v
  have h4 := valueBytes_le_iff (k := 4) (by decide) v
  have h5 := valueBytes_le_iff (k := 5) (by decide) v
  have h6 := valueBytes_le_iff (k := 6) (by decide) v
  have h7 := valueBytes_le_iff (k := 7) (by decide) v
  rw [length_hexBlock isGroupWidth_two, length_hexBlock isGroupWidth_four, length_hexBlock isGroupWidth_eight,
    length_hexBlock isGroupWidth_sixteen]
  simp only [imageBytes]
  refine ⟨?_, ?_, ?_, ?_, ?_, ?_, ?_, ?_, ?_, ?_, ?_, ?_, ?_, ?_, ?_⟩ <;> omega

/-- Settles O16: an image of one byte holds no pair of bytes (D14). -/
theorem byteBlockLosesSmallValues : Obligations.ByteBlockLosesSmallValues := by
  intro tok pos
  refine ⟨fun v h => encodeHex_of_ok h 2, fun v h hv => ?_, fun e h => encodeHex_of_error h 2⟩
  have hblock : hexBlock 2 v = [0x20, 0x00] := hexBlock_of_inWidth isGroupWidth_two (Nat.lt_succ_of_le hv)
  exact (encodeHex_of_ok h 2).trans (congrArg _ hblock)

/-- Settles O17: a value within the type's width fills one group, whose bytes are its low bytes. -/
theorem hexBlocksInWidthAreLittleEndian : Obligations.HexBlocksInWidthAreLittleEndian := by
  intro tok pos
  refine ⟨fun v h => ⟨encodeHex_of_ok h 4, encodeHex_of_ok h 8, encodeHex_of_ok h 16⟩, fun v h hv => ?_,
    fun v h hv => ?_, fun v h => ?_, fun e dt h hdt => ?_⟩
  · refine (encodeHex_of_ok h 4).trans ?_
    rw [hexBlock_of_inWidth isGroupWidth_four (Nat.lt_succ_of_le hv), lowBytes_eq_extractLsb']
    rfl
  · refine (encodeHex_of_ok h 8).trans ?_
    rw [hexBlock_of_inWidth isGroupWidth_eight (Nat.lt_succ_of_le hv), lowBytes_eq_extractLsb']
    rfl
  · refine (encodeHex_of_ok h 16).trans ?_
    rw [hexBlock_of_inWidth isGroupWidth_sixteen v.isLt, lowBytes_eq_extractLsb']
    rfl
  · obtain rfl | rfl | rfl := hdt <;> exact encodeHex_of_error h _

/-- Settles O13: the Bit encoder keeps the low byte of what the parse gives. -/
theorem bitBlockKeepsTheLowByte : Obligations.BitBlockKeepsTheLowByte := by
  refine fun tok pos => ⟨fun v h => ?_, fun e h => ?_⟩
  · simp [encodeValue, encodeBit, h, lo8, BitVec.ofNat_toNat]
  · simp [encodeValue, encodeBit, h]

/-- Settles O18, by the equation of each value of the OPEN parameter. -/
theorem unknownValueFollowsTheOpenParameter : Obligations.UnknownValueFollowsTheOpenParameter := fun tok pos =>
  ⟨fun _ h => encodeValuesFrom_of_blank .unknown 0 h, encodeValue_unknown tok pos, rfl,
    fun _ h => ⟨encodeHex_of_ok h 2, encodeHex_of_ok h 4, encodeHex_of_ok h 8, encodeHex_of_ok h 16⟩,
    fun _ _ h hg => encodeUnknown_of_error h hg⟩

end Sys2Proof.Machine
end

section
/-! The family of spec/42_address_list.md: the grammar of a device token (R104), the first token that the check
reports (R162), and the raise of that error in every form (R324, R325). -/

namespace Sys2Proof.Machine

-- The token check

/-- A device token is a word of the grammar of R104. -/
theorem isDeviceToken_iff (t : Bytes) :
    isDeviceToken t = true ↔
      ∃ c suffix, t = c :: suffix ∧ (0x41 ≤ c.toNat ∧ c.toNat ≤ 0x5A) ∧ suffix ≠ [] ∧
        ∀ d ∈ suffix, 0x30 ≤ d.toNat ∧ d.toNat ≤ 0x39 := by
  cases t with
  | nil => simp [isDeviceToken]
  | cons c suffix =>
    have hshape : isDeviceToken (c :: suffix) = true ↔
        (0x41 ≤ c.toNat ∧ c.toNat ≤ 0x5A) ∧ suffix ≠ [] ∧ suffix.all isDigit = true := by
      simp [isDeviceToken, isCapital, and_assoc]
    rw [hshape, all_isDigit_iff]
    constructor
    · exact fun h => ⟨c, suffix, rfl, h⟩
    · rintro ⟨_, _, heq, h⟩
      cases heq
      exact h

/-- The error of a token that fails, with its index (R162). -/
def tokenRaise (t : Bytes) (k : Nat) : Raise :=
  if t = [] then ⟨.emptyDeviceToken, .position k⟩ else ⟨.malformedDeviceToken, .position k⟩

theorem checkTokensFrom_cons_of_isDeviceToken {t : Bytes} (ht : isDeviceToken t = true) (k : Nat)
    (ts : List Bytes) : checkTokensFrom k (t :: ts) = checkTokensFrom (k + 1) ts := by
  have hne : t ≠ [] := by rintro rfl; cases ht
  rw [checkTokensFrom, if_neg hne, if_pos ht]

theorem checkTokensFrom_cons_of_not_isDeviceToken {t : Bytes} (ht : isDeviceToken t = false) (k : Nat)
    (ts : List Bytes) : checkTokensFrom k (t :: ts) = some (tokenRaise t k) := by
  rw [checkTokensFrom, tokenRaise]
  split_ifs with hempty htoken
  · rfl
  · cases ht.symm.trans htoken
  · rfl

/-- The check from index `n` on reports the first token that fails, at its index counted from `n` (R162). -/
theorem checkTokensFrom_of_first_failure {tokens : List Bytes} {k : Nat} {t : Bytes} (n : Nat)
    (hk : tokens[k]? = some t) (ht : isDeviceToken t = false)
    (hbefore : ∀ j u, j < k → tokens[j]? = some u → isDeviceToken u = true) :
    checkTokensFrom n tokens = some (tokenRaise t (n + k)) := by
  induction tokens generalizing n k with
  | nil => cases hk
  | cons u us ih =>
    cases k with
    | zero =>
      obtain rfl : u = t := by simpa using hk
      exact checkTokensFrom_cons_of_not_isDeviceToken ht n us
    | succ k =>
      have hu : isDeviceToken u = true := hbefore 0 u k.succ_pos rfl
      have hrest := ih (n + 1) hk fun j v hj hv => hbefore (j + 1) v (Nat.succ_lt_succ hj) hv
      rw [checkTokensFrom_cons_of_isDeviceToken hu, hrest, Nat.add_right_comm, Nat.add_assoc]

-- The raise of the check's error

/-- Where the check fails, the rest of the form does not run (R325). -/
theorem buildItems_of_checkTokens_eq_some {s : State} {csv : Bytes} {e : Raise} (hcsv : s.addrCsv = some csv)
    (he : checkTokens (split csv) = some e) (k : Kind) (dt : DataType) (go : Bytes → State → Result) :
    buildItems k dt s go =
      .next (raise e { s with kind := some k, dt := some dt, tokens := some (split csv) }) := by
  simp [buildItems, tokenize, hcsv, he]

-- The obligations

/-- Settles O11: the scan passes the tokens before the first that fails. -/
theorem checkTokensReportsTheFirstFailure : Obligations.CheckTokensReportsTheFirstFailure := by
  refine ⟨isDeviceToken_iff, checkTokens_eq_none_iff, fun tokens k t hk ht hbefore => ?_⟩
  have hfirst := checkTokensFrom_of_first_failure 0 hk ht hbefore
  rwa [Nat.zero_add] at hfirst

/-- Settles O22: a form of either kind checks the tokens before the part that its kind adds. -/
theorem badDeviceTokenRaisesInEveryForm : Obligations.BadDeviceTokenRaisesInEveryForm := by
  intro i s csv e hcsv he
  rw [exec_eq]
  cases kindOf i with
  | read => exact buildItems_of_checkTokens_eq_some hcsv he .read (dataTypeOf i) _
  | write => exact buildItems_of_checkTokens_eq_some hcsv he .write (dataTypeOf i) _

end Sys2Proof.Machine
end

section
/-! The family of spec/43_instruction_builder.md: the muxes on the command's strings (R180, R181), the value payload
(R186), the block that a form builds and its length (R182 to R188), and how each form ends in BUILD (R190 to R201). -/

namespace Sys2Proof.Machine

-- The muxes

theorem kindOfString_of_no_name {str : Bytes} (hread : str ≠ [0x72, 0x65, 0x61, 0x64])
    (hwrite : str ≠ [0x77, 0x72, 0x69, 0x74, 0x65]) : kindOfString str = none := by
  rw [kindOfString]
  exact (if_neg hread).trans (if_neg hwrite)

theorem dataTypeOfString_of_no_name {str : Bytes} (hbit : str ≠ [0x62, 0x69, 0x74])
    (hbyte : str ≠ [0x62, 0x79, 0x74, 0x65]) (hword : str ≠ [0x77, 0x6F, 0x72, 0x64])
    (hdword : str ≠ [0x64, 0x77, 0x6F, 0x72, 0x64]) (hlword : str ≠ [0x6C, 0x77, 0x6F, 0x72, 0x64]) :
    dataTypeOfString str = .unknown := by
  rw [dataTypeOfString]
  exact (if_neg hbit).trans <| (if_neg hbyte).trans <| (if_neg hword).trans <| (if_neg hdword).trans (if_neg hlword)

theorem buildStep_of_kindOfString_eq_none {s : State} {str : Bytes} (hs : s.kindStr = some str)
    (hk : kindOfString str = none) : buildStep s = .next (raise ⟨.badRequestKind, .nothing⟩ s) := by
  simp [buildStep, hs, hk]

-- The value payload

/-- A segment of the value list that does not raise at its index: it is blank, or it encodes (R186). -/
def segmentPasses (dt : DataType) (seg : Bytes) (pos : Nat) : Prop :=
  seg ≠ [] → ∃ block, encodeValue dt seg pos = .ok block

/-- What segments that do not raise add to the payload, the first of them at index `pos`. -/
def segmentBlocks (dt : DataType) (pos : Nat) (segs : List Bytes) : Bytes :=
  (segs.zipIdx pos).flatMap fun p => segmentBlock dt p.1 p.2

theorem segmentBlocks_cons (dt : DataType) (pos : Nat) (seg : Bytes) (segs : List Bytes) :
    segmentBlocks dt pos (seg :: segs) = segmentBlock dt seg pos ++ segmentBlocks dt (pos + 1) segs := rfl

theorem encodeValuesFrom_cons_of_passes {dt : DataType} {seg : Bytes} {pos : Nat} (h : segmentPasses dt seg pos)
    (segs : List Bytes) :
    encodeValuesFrom dt pos (seg :: segs) =
      (segmentBlock dt seg pos ++ (encodeValuesFrom dt (pos + 1) segs).1,
        (encodeValuesFrom dt (pos + 1) segs).2) := by
  by_cases hblank : seg = []
  · simp [encodeValuesFrom, segmentBlock, hblank]
  · obtain ⟨block, hblock⟩ := h hblank
    simp [encodeValuesFrom, segmentBlock, hblank, hblock]

theorem encodeValuesFrom_cons_of_error {dt : DataType} {seg : Bytes} {pos : Nat} {e : Raise} (hne : seg ≠ [])
    (he : encodeValue dt seg pos = .error e) (segs : List Bytes) :
    encodeValuesFrom dt pos (seg :: segs) = ([], some e) := by
  simp [encodeValuesFrom, hne, he]

/-- Segments that do not raise put their blocks in front of the payload of the segments behind them, whose raise is
the raise of the whole list (R186). -/
theorem encodeValuesFrom_append_of_passes {dt : DataType} {front : List Bytes} {pos : Nat}
    (h : ∀ k seg, front[k]? = some seg → segmentPasses dt seg (pos + k)) (back : List Bytes) :
    encodeValuesFrom dt pos (front ++ back) =
      (segmentBlocks dt pos front ++ (encodeValuesFrom dt (pos + front.length) back).1,
        (encodeValuesFrom dt (pos + front.length) back).2) := by
  induction front generalizing pos with
  | nil => rfl
  | cons seg segs ih =>
    have hseg : segmentPasses dt seg pos := h 0 seg rfl
    have hsegs := ih (pos := pos + 1) fun k u hu => by
      rw [Nat.add_right_comm]
      exact h (k + 1) u hu
    rw [List.cons_append, encodeValuesFrom_cons_of_passes hseg, hsegs, segmentBlocks_cons, List.append_assoc,
      List.length_cons, Nat.add_right_comm, Nat.add_assoc]

theorem encodeValues_of_passes {dt : DataType} {csv : Bytes}
    (h : ∀ k seg, (split csv)[k]? = some seg → segmentPasses dt seg k) :
    encodeValues dt csv = (segmentBlocks dt 0 (split csv), none) := by
  have happ := encodeValuesFrom_append_of_passes (pos := 0) (by simpa using h) []
  simpa [encodeValues, encodeValuesFrom] using happ

/-- The first segment that raises ends the payload, which holds the blocks of the segments before it. -/
theorem encodeValues_of_first_raise {dt : DataType} {csv seg : Bytes} {k : Nat} {e : Raise}
    (hk : (split csv)[k]? = some seg) (hne : seg ≠ []) (he : encodeValue dt seg k = .error e)
    (hbefore : ∀ j u, j < k → (split csv)[j]? = some u → segmentPasses dt u j) :
    encodeValues dt csv = (segmentBlocks dt 0 ((split csv).take k), some e) := by
  obtain ⟨hlt, rfl⟩ := List.getElem?_eq_some_iff.mp hk
  have hfront : ∀ j u, ((split csv).take k)[j]? = some u → segmentPasses dt u (0 + j) := fun j u hu => by
    rw [List.getElem?_take, Option.ite_none_right_eq_some] at hu
    obtain ⟨hj, hu⟩ := hu
    rw [Nat.zero_add]
    exact hbefore j u hj hu
  have happ := encodeValuesFrom_append_of_passes hfront ((split csv).drop k)
  rw [List.take_append_drop, List.length_take_of_le hlt.le, Nat.zero_add, List.drop_eq_getElem_cons hlt,
    encodeValuesFrom_cons_of_error hne he, List.append_nil] at happ
  exact happ

-- The block that a form builds

/-- The symbol encoder's item, laid out as R94 has it; of an empty token as well. -/
theorem item_eq_layout (dt : DataType) (t : Bytes) :
    item dt t = [lo8 (2 + t.length), 0x00, 0x25] ++ t.take 1 ++ [typeLetter dt] ++ t.drop 1 := by
  rw [item, length_symbol]
  cases t <;> rfl

theorem blockBytes_eq_formBlock (i : Instr) (tokens : List Bytes) (payload : Bytes) :
    blockBytes (encodeHead i) (typeLetter (dataTypeOf i)) tokens payload = formBlock i tokens payload := by
  have hitem : item (dataTypeOf i) = fun t =>
      [lo8 (2 + t.length), 0x00, 0x25] ++ t.take 1 ++ [typeLetter (dataTypeOf i)] ++ t.drop 1 :=
    funext (item_eq_layout _)
  rw [blockBytes, ← hitem, formBlock_eq, List.append_assoc _ (tokens.flatMap _)]

theorem blockBytes_of_kind {i : Instr} {k : Kind} (hk : kindOf i = k) (tokens : List Bytes) (payload : Bytes) :
    blockBytes (encodeHead i) (typeLetter (dataTypeOf i)) tokens payload =
      instructionBlock k (dataTypeOf i) tokens ++ payload := by
  rw [blockBytes_eq_formBlock, formBlock, hk]

theorem length_formBlock (i : Instr) (tokens : List Bytes) (payload : Bytes) :
    (formBlock i tokens payload).length = 8 + (tokens.map fun tok => 4 + tok.length).sum + payload.length := by
  simp only [formBlock_eq, List.length_append, length_encodeHead, length_flatMap_item, List.length_cons,
    List.length_nil]
  omega

-- How a form ends

theorem readReg_of_eq_some {α : Type} {reg : Option α} {v : α} (h : reg = some v) (name : Register)
    (go : α → Result) : readReg reg name go = go v := by
  rw [h, readReg_some]

/-- Where the check passes, the rest of the form runs on the block of the tokens. -/
theorem buildItems_of_deviceTokens {s : State} {csv : Bytes} (hcsv : s.addrCsv = some csv)
    (ht : ∀ t ∈ split csv, isDeviceToken t = true) (k : Kind) (dt : DataType) (go : Bytes → State → Result) :
    buildItems k dt s go =
      go (instructionBlock k dt (split csv)) { s with
        kind := some k, dt := some dt, tokens := some (split csv)
        ibuf := some (instructionBlock k dt (split csv)) } := by
  simp [buildItems, tokenize, hcsv, (checkTokens_eq_none_iff _).mpr ht]

/-- The frame builder's part of BUILD completes the built state (R233 to R235). -/
theorem finishBuild_eq_builtState {s : State} {family : Bytes} (hf : s.family = some family) (k : Kind)
    (dt : DataType) (csv block : Bytes) :
    finishBuild block { s with kind := some k, dt := some dt, tokens := some (split csv), ibuf := some block } =
      .next (builtState k dt csv family block s) := by
  simp [finishBuild, hf, builtState, requestFrame_eq, patchHeader_buildHeader, familyLsis_eq]

/-- A read form on device tokens builds its block without a payload (R190 to R195). -/
theorem exec_read_eq_builtState {i : Instr} (hk : kindOf i = .read) {s : State} {csv family : Bytes}
    (hcsv : s.addrCsv = some csv) (hf : s.family = some family) (ht : ∀ t ∈ split csv, isDeviceToken t = true) :
    exec i s = .next (builtState .read (dataTypeOf i) csv family
      (blockBytes (encodeHead i) (typeLetter (dataTypeOf i)) (split csv) []) s) := by
  rw [exec_eq, hk, blockBytes_of_kind hk, List.append_nil]
  exact (buildItems_of_deviceTokens hcsv ht _ _ _).trans (finishBuild_eq_builtState hf _ _ _ _)

/-- A write form on device tokens and values that encode builds its block with their payload (R196 to R201). -/
theorem exec_write_eq_builtState {i : Instr} (hk : kindOf i = .write) {s : State} {csv vals family payload : Bytes}
    (hcsv : s.addrCsv = some csv) (hv : s.valCsv = some vals) (hf : s.family = some family)
    (ht : ∀ t ∈ split csv, isDeviceToken t = true) (hp : encodeValues (dataTypeOf i) vals = (payload, none)) :
    exec i s = .next { builtState .write (dataTypeOf i) csv family
      (blockBytes (encodeHead i) (typeLetter (dataTypeOf i)) (split csv) payload) s with vbuf := some payload } := by
  rw [exec_eq, hk, blockBytes_of_kind hk]
  refine (buildItems_of_deviceTokens hcsv ht _ _ _).trans ((readReg_of_eq_some hv _ _).trans ?_)
  simp only [hp, memAppend_eq]
  exact finishBuild_eq_builtState (s := { s with vbuf := some payload }) hf _ _ _ _

/-- A write form on device tokens and a value that raises stops before the frame is formed (R324, R325). -/
theorem exec_write_eq_raise {i : Instr} (hk : kindOf i = .write) {s : State} {csv vals before : Bytes} {e : Raise}
    (hcsv : s.addrCsv = some csv) (hv : s.valCsv = some vals) (ht : ∀ t ∈ split csv, isDeviceToken t = true)
    (he : encodeValues (dataTypeOf i) vals = (before, some e)) :
    exec i s = .next (raise e { s with
      kind := some .write, dt := some (dataTypeOf i), tokens := some (split csv)
      ibuf := some (blockBytes (encodeHead i) (typeLetter (dataTypeOf i)) (split csv) []), vbuf := some before }) := by
  rw [exec_eq, hk, blockBytes_of_kind hk, List.append_nil]
  refine (buildItems_of_deviceTokens hcsv ht _ _ _).trans ((readReg_of_eq_some hv _ _).trans ?_)
  simp only [he]

/-- Putting another value list in before a read form is putting it in after it (R186). -/
theorem buildRead_valCsv (dt : DataType) (s : State) (vals : Option Bytes) :
    mapNext (fun t => { t with valCsv := vals }) (buildRead dt s) = buildRead dt { s with valCsv := vals } := by
  refine mapNext_readReg fun csv => ?_
  cases checkTokens (tokenize csv) with
  | some e => rfl
  | none => exact mapNext_readReg fun _ => rfl

-- The obligations

/-- Settles O20: the read forms are one lemma, at their head bytes and type letters. -/
theorem readFormsBuildTheirFrame : Obligations.ReadFormsBuildTheirFrame := by
  intro s csv family hcsv hf ht
  have built (i : Instr) (hk : kindOf i = .read) := exec_read_eq_builtState hk hcsv hf ht
  exact ⟨built .readBit rfl, built .readByte rfl, built .readWord rfl, built .readDword rfl, built .readLword rfl,
    built .readUnknown rfl⟩

/-- Settles O21: the write forms are one lemma, at their head bytes and type letters. -/
theorem writeFormsBuildTheirFrame : Obligations.WriteFormsBuildTheirFrame := by
  intro s csv vals family payload hcsv hv hf ht
  have built (i : Instr) (hk : kindOf i = .write) := exec_write_eq_builtState (payload := payload) hk hcsv hv hf ht
  exact ⟨built .writeBit rfl, built .writeByte rfl, built .writeWord rfl, built .writeDword rfl,
    built .writeLword rfl, built .writeUnknown rfl⟩

/-- Settles O19: the segments before the raise, and all of them where there is none, give their blocks. -/
theorem valuesSkipBlanksAndStopAtTheFirstRaise : Obligations.ValuesSkipBlanksAndStopAtTheFirstRaise := fun _ _ =>
  ⟨encodeValues_of_passes,
    fun _ _ _ hk hne he hbefore => congrArg Prod.snd (encodeValues_of_first_raise hk hne he hbefore)⟩

/-- Settles O23: the raise comes after the block and the payload so far are written. -/
theorem badValueTokenRaisesInWriteForms : Obligations.BadValueTokenRaisesInWriteForms :=
  fun _ _ _ _ _ _ hk hcsv hv ht he => exec_write_eq_raise hk hcsv hv ht he

/-- Settles O25: a read form commutes with putting in another value list, whatever it answers. -/
theorem readsIgnoreTheValueList : Obligations.ReadsIgnoreTheValueList := by
  intro i s vals hk
  rw [exec_eq, exec_eq, hk]
  refine (buildRead_valCsv (dataTypeOf i) s vals).symm.trans ?_
  cases buildRead (dataTypeOf i) s <;> rfl

/-- Settles O27: IBUF is the form's block, whose payload is VBUF for a write and empty for a read. -/
theorem instructionBlockLength : Obligations.InstructionBlockLength := by
  intro i s t csv hcsv h hp
  obtain ⟨csv', family, payload, hb⟩ := exec_send h hp
  cases hcsv.symm.trans hb.reads_addrCsv
  have hlen := length_formBlock i (split csv) payload
  refine ⟨_, hb.ibuf, ?_⟩
  cases hk : kindOf i with
  | read =>
    cases hb.payload_of_read hk
    exact hlen
  | write => exact ⟨payload, hb.vbuf_of_write hk, hlen⟩

/-- Settles O6: a string that is neither name has no kind, and the step raises. -/
theorem opcodeMuxIsExact : Obligations.OpcodeMuxIsExact := by
  refine ⟨by decide, by decide, fun s str hr hp hs hread hwrite => ?_⟩
  simp only [step_phase hr, hp, buildStep_of_kindOfString_eq_none hs (kindOfString_of_no_name hread hwrite)]
  rfl

/-- Settles O7: the five names by evaluation, and every other string by failing each comparison. -/
theorem typeMuxFallsBackToUnknown : Obligations.TypeMuxFallsBackToUnknown :=
  ⟨by decide, by decide, by decide, by decide, by decide, fun _ => dataTypeOfString_of_no_name, rfl, rfl⟩

/-- Settles O8: the step in BUILD is the mux and then the form. -/
theorem stepRunsTheSelectedForm : Obligations.StepRunsTheSelectedForm := by
  intro s kindStr dtypeStr i hr hp hk hd hi
  simp only [step_phase hr, hp, buildStep_of_decodeDescriptor hk hd hi]

end Sys2Proof.Machine
end

section
/-! The frame builder: which header a family selects (spec/44_frame_builder.md R230, R231). -/

namespace Sys2Proof.Machine

theorem familyLsis_eq_true_iff (family : Bytes) :
    familyLsis family = true ↔ (family = [0x58, 0x47, 0x54] ∨ family = [0x58, 0x47, 0x42]) := by
  rw [familyLsis_eq, decide_eq_true_iff]

/-- Settles O30: the built header is the one of the family bit, and the bit is set for the two names alone. -/
theorem familySelectsTheHeader : Obligations.FamilySelectsTheHeader := by
  intro family
  rw [buildHeader_eq, ← familyLsis_eq_true_iff]
  refine ⟨fun hlsis => ?_, fun hother => ?_, length_headerBytes _⟩
  · rw [hlsis]
  · rw [Bool.eq_false_of_not_eq_true hother]

end Sys2Proof.Machine
end

section
/-! The family of spec/45_response_parser.md: no data (R261, R262), the loops in the closed forms of R267 and R268, and
what PARSE leaves unchanged (R260, R324). -/

namespace Sys2Proof.Machine

-- The regions of a response

/-- The index of R265 with the distance to the end of the response as one natural number. -/
theorem parseIndex_succ (len num i j : Nat) : parseIndex len num (i + 1) j = len - j - (i * (num + 2) : Nat) := by
  simp [parseIndex]

/-- Region I lies inside the response exactly when its index at J = NUM is not below 0. -/
theorem parseIndex_last_nonneg_iff {i : Nat} (hi : 1 ≤ i) (len num : Nat) :
    0 ≤ parseIndex len num i num ↔ i * (num + 2) - 2 ≤ len := by
  obtain ⟨i, rfl⟩ := Nat.exists_eq_add_of_le' hi
  rw [parseIndex_succ, Nat.succ_mul]
  omega

/-- The index at J = NUM is where region I begins (R267). -/
theorem region_eq_take_drop_parseIndex (r : Bytes) (num : Nat) {i : Nat} (hi : 1 ≤ i) :
    region r num i = (r.drop (parseIndex r.length num i num).toNat).take num := by
  obtain ⟨i, rfl⟩ := Nat.exists_eq_add_of_le' hi
  have hbegin : (parseIndex r.length num (i + 1) num).toNat = r.length - i * (num + 2) - num := by
    rw [parseIndex_succ]
    omega
  rw [region, hbegin, Nat.add_sub_cancel]

theorem length_region {r : Bytes} {num i : Nat} (hi : 1 ≤ i) (hfits : i * (num + 2) - 2 ≤ r.length) :
    (region r num i).length = num := by
  obtain ⟨i, rfl⟩ := Nat.exists_eq_add_of_le' hi
  rw [Nat.succ_mul] at hfits
  rw [region, Nat.add_sub_cancel, List.length_take, List.length_drop]
  omega

/-- The response that holds region I holds every region after it. -/
theorem regions_fit_of_le {len num i k : Nat} (hfits : i * (num + 2) - 2 ≤ len) (hk : k ≤ i) :
    k * (num + 2) - 2 ≤ len :=
  (Nat.sub_le_sub_right (Nat.mul_le_mul_right _ hk) 2).trans hfits

/-- The low k bytes of a little-endian number are its k lowest-addressed ones (R267). -/
theorem leNat_take (bs : Bytes) (k : Nat) : leNat (bs.take k) = leNat bs % 256 ^ k := by
  rcases Nat.le_total k bs.length with hk | hk
  · have hlen : (bs.take k).length = k := List.length_take_of_le hk
    have hlt := leNat_lt (bs.take k)
    have hsplit := leNat_append (bs.take k) (bs.drop k)
    rw [hlen] at hlt hsplit
    rw [List.take_append_drop] at hsplit
    rw [hsplit, Nat.add_mul_mod_self_left, Nat.mod_eq_of_lt hlt]
  · rw [List.take_of_length_le hk,
      Nat.mod_eq_of_lt ((leNat_lt bs).trans_le (Nat.pow_le_pow_right (by decide) hk))]

/-- A value modulo 2^64 is the number of its 8 lowest-addressed bytes (R267, R271). -/
theorem toNat_ofNat_leNat (bs : Bytes) : (BitVec.ofNat 64 (leNat bs)).toNat = leNat (bs.take 8) :=
  (leNat_take bs 8).symm

theorem length_regionValues (r : Bytes) (num count : Nat) : (regionValues r num count).length = count := by
  simp [regionValues]

theorem regionValues_getElem? (r : Bytes) (num : Nat) {count k : Nat} (hk : k < count) :
    (regionValues r num count)[k]? = some (BitVec.ofNat 64 (leNat (region r num (count - k)))) := by
  simp [regionValues, hk]

/-- Region COUNT comes first, as the loop over I takes it first (R264, R269). -/
theorem regionValues_succ (r : Bytes) (num count : Nat) :
    regionValues r num (count + 1) =
      BitVec.ofNat 64 (leNat (region r num (count + 1))) :: regionValues r num count := by
  simp [regionValues, List.range_succ_eq_map, Function.comp_def, Nat.add_sub_add_right]

-- The loops

/-- An outer pass over a region inside the response ends with the region's value in ACC (R266, R267). -/
theorem parseInner_of_fits {r : Bytes} {num i : Nat} (hi : 1 ≤ i) (hfits : i * (num + 2) - 2 ≤ r.length) :
    ∃ regs, parseInner r num num ⟨i, 0, 0, 0⟩ = (regs, true) ∧
      regs.acc = BitVec.ofNat 64 (leNat (region r num i)) := by
  obtain ⟨hok, -, hacc⟩ := parseInner_inRange r num num ⟨i, 0, 0, 0⟩ le_rfl hi
    ((parseIndex_last_nonneg_iff hi _ _).mpr hfits)
  refine ⟨_, Prod.ext rfl hok, ?_⟩
  rw [hacc, region_eq_take_drop_parseIndex r num hi]
  exact BitVec.zero_add _

/-- The loops over a response that holds every region append the values of R267. -/
theorem parseOuter_of_fits {r : Bytes} {num count : Nat} (hfits : count * (num + 2) - 2 ≤ r.length)
    (regs : Option LoopRegs) (out : List U64) :
    ∃ regs', parseOuter r num count regs out = (regs', out ++ regionValues r num count, true) := by
  induction count generalizing regs out with
  | zero => exact ⟨regs, by simp [parseOuter, regionValues]⟩
  | succ i ih =>
    obtain ⟨pass, hpass, hacc⟩ := parseInner_of_fits (Nat.succ_pos i) hfits
    obtain ⟨regs', hrest⟩ := ih (regions_fit_of_le hfits (Nat.le_succ i)) (some pass) (out ++ [pass.acc])
    refine ⟨regs', ?_⟩
    simp only [parseOuter, hpass, hrest]
    rw [hacc, regionValues_succ, List.append_assoc, List.singleton_append]

/-- The index at the J of R268 is below 0 in every case. -/
theorem parseIndex_failingJ_neg (len num i : Nat) : parseIndex len num i (failingJ len num i) < 0 := by
  unfold parseIndex failingJ
  omega

/-- The first J whose index is below 0 is the one of R268. -/
theorem eq_failingJ {len num i j : Nat} (hj : 0 < j) (hneg : parseIndex len num i j < 0)
    (hbefore : ∀ j', 0 < j' → j' < j → 0 ≤ parseIndex len num i j') : j = failingJ len num i := by
  apply Nat.le_antisymm
  · by_contra hlt
    have := hbefore (failingJ len num i) (by unfold failingJ; omega) (Nat.lt_of_not_le hlt)
    have := parseIndex_failingJ_neg len num i
    omega
  · unfold parseIndex at hneg
    unfold failingJ
    omega

/-- An outer pass over a region that does not fit into the response stops, with the (I, J, IDX) of R268. -/
theorem parseInner_of_not_fits {r : Bytes} {num i : Nat} (hnum : 1 ≤ num) (hi : 1 ≤ i)
    (hshort : r.length < i * (num + 2) - 2) :
    ∃ regs, parseInner r num num ⟨i, 0, 0, 0⟩ = (regs, false) ∧
      indexInfo (some regs) =
        .index i (failingJ r.length num i) (parseIndex r.length num i (failingJ r.length num i)) := by
  have hout : parseIndex r.length num i num < 0 := by
    rw [← Int.not_le, parseIndex_last_nonneg_iff hi]
    exact Nat.not_le.mpr hshort
  obtain ⟨hok, hsame, hidx, hneg, hpos, hbefore⟩ :=
    parseInner_outOfRange r num num ⟨i, 0, 0, 0⟩ hnum le_rfl hi hout
  rw [Nat.sub_self] at hpos hbefore
  have hj := eq_failingJ hpos (hidx ▸ hneg) hbefore
  refine ⟨_, Prod.ext rfl hok, ?_⟩
  rw [indexInfo, hsame, hidx, hj]

/-- The loops over a response that does not hold region COUNT end in the first outer pass (R268). -/
theorem parseOuter_of_not_fits {r : Bytes} {num count : Nat} (hnum : 1 ≤ num)
    (hshort : r.length < count * (num + 2) - 2) (regs : Option LoopRegs) (out : List U64) :
    ∃ regs', parseOuter r num count regs out = (regs', out, false) ∧
      indexInfo regs' = .index count (failingJ r.length num count)
        (parseIndex r.length num count (failingJ r.length num count)) := by
  cases count with
  | zero => omega
  | succ i =>
    obtain ⟨pass, hpass, hinfo⟩ := parseInner_of_not_fits hnum (Nat.succ_pos i) hshort
    exact ⟨some pass, by simp only [parseOuter, hpass], hinfo⟩

-- PARSE

theorem parseResponse_of_short {s : State} {r : Bytes} (hr : s.rbuf = some r) (hlen : r.length ≤ 30) :
    parseResponse s = .next { s with result := [], phase := .done } := by
  rw [parseResponse, readReg_of_eq_some hr]
  exact dif_neg (Nat.not_lt.mpr hlen)

theorem parseResponse_of_width {s : State} {r : Bytes} {num : Byte} (hr : s.rbuf = some r)
    (hnum : r[30]? = some num) : parseResponse s = parseWithWidth r num s := by
  obtain ⟨hlen, hbyte⟩ := List.getElem?_eq_some_iff.mp hnum
  rw [parseResponse, readReg_of_eq_some hr, ← hbyte]
  exact dif_pos hlen

theorem parseWithWidth_zero (r : Bytes) (s : State) :
    parseWithWidth r 0 s = .next { s with num := some 0, result := [], phase := .done } := rfl

section
variable {s : State} {r csv : Bytes} {num : Byte}

/-- PARSE of a response that holds every region ends in DONE with the values of R267 in the order of R269. -/
theorem parseResponse_of_fits (hr : s.rbuf = some r) (ha : s.addrCsv = some csv) (hbyte : r[30]? = some num)
    (hne : num ≠ 0) (hfits : deviceCount csv * (num.toNat + 2) - 2 ≤ r.length) :
    ∃ regs, parseResponse s = .next { setParseRegs num (deviceCount csv) regs s with
      result := regionValues r num.toNat (deviceCount csv), phase := .done } := by
  obtain ⟨regs, hloops⟩ := parseOuter_of_fits hfits none []
  refine ⟨regs, ?_⟩
  simp only [parseResponse_of_width hr hbyte, parseWithWidth, if_neg hne, readReg_of_eq_some ha, hloops,
    List.nil_append]

/-- PARSE of a response that is too short for region COUNT raises PROTO_INDEX where R268 says (R265). -/
theorem parseResponse_of_not_fits (hr : s.rbuf = some r) (ha : s.addrCsv = some csv) (hbyte : r[30]? = some num)
    (hne : num ≠ 0) (hshort : r.length < deviceCount csv * (num.toNat + 2) - 2) :
    ∃ regs, parseResponse s = .next (raise
      ⟨.protoIndex, .index (deviceCount csv) (failingJ r.length num.toNat (deviceCount csv))
        (parseIndex r.length num.toNat (deviceCount csv) (failingJ r.length num.toNat (deviceCount csv)))⟩
      (setParseRegs num (deviceCount csv) regs s)) := by
  have hpos : 1 ≤ num.toNat := Nat.pos_of_ne_zero fun h => hne (BitVec.eq_of_toNat_eq h)
  obtain ⟨regs, hloops, hinfo⟩ := parseOuter_of_not_fits hpos hshort none []
  refine ⟨regs, ?_⟩
  simp only [parseResponse_of_width hr hbyte, parseWithWidth, if_neg hne, readReg_of_eq_some ha, hloops, hinfo]

end

-- The obligations

/-- Settles O34: the values of the loops in closed form, region COUNT first. -/
theorem parsedValuesAreLittleEndianRegions : Obligations.ParsedValuesAreLittleEndianRegions := by
  rintro s r csv num _ hr ha hbyte hne rfl hfits
  obtain ⟨regs, hparse⟩ := parseResponse_of_fits hr ha hbyte hne hfits
  refine ⟨_, hparse, rfl, rfl, rfl, length_regionValues .., fun k hk => ?_⟩
  exact ⟨_, regionValues_getElem? r num.toNat hk, rfl, toNat_ofNat_leNat _,
    length_region (Nat.sub_pos_of_lt hk) (regions_fit_of_le hfits (Nat.sub_le _ k))⟩

/-- Settles O35: the two ends of the loops, which the bound on the length separates. -/
theorem parserFailureLaw : Obligations.ParserFailureLaw := by
  rintro s r csv num _ j idx hr ha - hbyte hne rfl hj rfl
  refine ⟨fun hshort => ?_, fun hfits => ?_⟩
  · obtain ⟨regs, hparse⟩ := parseResponse_of_not_fits hr ha hbyte hne hshort
    have hneg := parseIndex_failingJ_neg r.length num.toNat (split csv).length
    have hj : j = failingJ r.length num.toNat (split csv).length := by unfold failingJ; omega
    rw [hj]
    exact ⟨_, hparse, rfl, rfl, rfl, rfl, rfl, hneg⟩
  · obtain ⟨regs, hparse⟩ := parseResponse_of_fits hr ha hbyte hne hfits
    exact ⟨_, hparse, rfl⟩

/-- Settles O36: what each way in which PARSE ends leaves unchanged. -/
theorem parserKeepsEveryOtherRegister : Obligations.ParserKeepsEveryOtherRegister := by
  intro s hr ha
  obtain ⟨t, h⟩ := parseResponse_answers hr ha
  refine ⟨t, h, ?_⟩
  obtain ⟨r, -, ⟨-, rfl⟩ | ⟨num, -, hwidth⟩⟩ := parseResponse_next h
  · simp
  · obtain ⟨-, rfl⟩ | ⟨-, csv, -, regs, out, ⟨-, rfl⟩ | ⟨-, rfl⟩⟩ := parseWithWidth_next hwidth <;> simp

/-- Settles O33: the length alone, or the byte at offset 30, ends PARSE before its loops. -/
theorem shortOrZeroWidthResponseIsNoData : Obligations.ShortOrZeroWidthResponseIsNoData := by
  intro s r hline hp hr
  simp only [step_phase hline, hp]
  exact ⟨parseResponse_of_short hr,
    fun hbyte => (parseResponse_of_width hr hbyte).trans (parseWithWidth_zero r s)⟩

end Sys2Proof.Machine
end

section
/-! The family of spec/46_command.md: START (R291), SEND (R296) and END (R300) step by step, the sequencer's diagram
(R290) and its transport events (R301), and the run of a whole command, which computes its function (R302). -/

namespace Sys2Proof.Machine

-- START, SEND and END

/-- In IDLE a START at the head of the caller's queue is taken from it and carried out (R291). -/
theorem step_start {s : State} {c : Command} {later : List CallerAct} (hr : s.env.resetLine = false)
    (hp : s.phase = .idle) (hc : s.env.caller = .start c :: later) :
    step s = .next (startCommand c (s.withCaller later)) := by
  simp only [step_phase hr, hp, idleStep, hc, callerAct, State.withCaller]

/-- Outside IDLE the step of the phase leaves the caller's acts where they are, and no phase leads to BUILD (R290,
R291). -/
theorem step_admits_no_act {s t : State} (hr : s.env.resetLine = false) (hi : s.phase ≠ .idle)
    (h : step s = .next t) : t.env.caller = s.env.caller ∧ t.phase ≠ .build := by
  cases step_cases h with
  | reset hr' => exact absurd (hr.symm.trans hr') nofun
  | wait hp => exact ⟨rfl, by rcases hp with hp | hp | hp <;> simp [hp]⟩
  | act hp _ => exact absurd hp hi
  | form _ he => exact ⟨by rw [exec_env he], by rcases exec_phase he with hp | hp <;> simp [hp]⟩
  | @received k => cases k <;> exact ⟨rfl, nofun⟩
  | _ => exact ⟨rfl, nofun⟩

theorem step_end {s : State} (hr : s.env.resetLine = false) (hp : s.phase = .done ∨ s.phase = .fault) :
    step s = .next (endCommand s) := by
  rcases hp with hp | hp <;> simp only [step_phase hr, hp]

theorem commandOutcome_of_done {s : State} (hp : s.phase = .done) : commandOutcome s = .ok s.result := by
  simp [commandOutcome, hp]

theorem commandOutcome_of_fault {s : State} (hp : s.phase = .fault) :
    commandOutcome s = .err s.errKind s.errDetail s.errInfo := by
  simp [commandOutcome, hp]

theorem commandOutcome_raise (e : Raise) (s : State) : commandOutcome (raise e s) = errOutcome e := rfl

/-- Settles O39, by cases on the answer. -/
theorem sendAnswers : Obligations.SendAnswers := by
  intro s frame a later hr hp hf ha
  simp only [step_phase hr, hp, sendStep, readReg_of_eq_some hf, ha]
  cases a with
  | ok => rfl
  | connErr => rfl
  | ioErr => rfl

-- The run of a command

/-- The host interface after the caller has taken an outcome (R300). -/
def giveOutcome (o : CommandOutcome) (env : Env) : Env := { env with outputs := env.outputs ++ [o] }

/-- The block as after reset, with the outcome given to the caller (R300, R326). -/
def endState (o : CommandOutcome) (transport : Transport) (env : Env) : State :=
  { State.reset with transport := transport, env := giveOutcome o env }

theorem endCommand_eq_endState (s : State) : endCommand s = endState (commandOutcome s) s.transport s.env := rfl

/-- A run of at most `n` steps from `s` ends a command with this outcome, with the transport state as in `s` and the
host interface as given but for the outcome. -/
def EndsWithin (n : Nat) (s : State) (o : CommandOutcome) (env : Env) : Prop :=
  ∃ k ≤ n, Host.Core.run core k s = .next (endState o s.transport env)

theorem run_succ_of_step {s t : State} (h : step s = .next t) (k : Nat) :
    Host.Core.run core (k + 1) s = Host.Core.run core k t := by
  simp only [Host.Core.run, core, h]

/-- One more step in front of a run. -/
theorem EndsWithin.of_step {n : Nat} {s t : State} {o : CommandOutcome} {env : Env} (h : step s = .next t)
    (ht : t.transport = s.transport) (hrun : EndsWithin n t o env) : EndsWithin (n + 1) s o env := by
  obtain ⟨k, hk, hrun⟩ := hrun
  exact ⟨k + 1, Nat.succ_le_succ hk, by rw [run_succ_of_step h, hrun, ht]⟩

/-- From DONE and FAULT the one step of END. -/
theorem endsWithin_of_end {s : State} (hr : s.env.resetLine = false) (hp : s.phase = .done ∨ s.phase = .fault)
    (n : Nat) : EndsWithin (n + 1) s (commandOutcome s) s.env :=
  ⟨1, Nat.succ_le_succ (Nat.zero_le n), by rw [run_succ_of_step (step_end hr hp), endCommand_eq_endState]; rfl⟩

theorem endsWithin_raise (e : Raise) {s : State} (hr : s.env.resetLine = false) (n : Nat) :
    EndsWithin (n + 1) (raise e s) (errOutcome e) s.env :=
  endsWithin_of_end (s := raise e s) hr (.inr rfl) n

-- PARSE in a run

/-- A response without the byte of the width holds no data (R261). -/
theorem parseFn_of_short {r : Bytes} (hlen : r.length ≤ 30) (csv : Bytes) : parseFn r csv = .ok [] :=
  if_pos (.inl hlen)

/-- With that byte, the closed forms of R262, R267 and R268 on the width that it gives. -/
theorem parseFn_of_width {r : Bytes} {num : Byte} (hbyte : r[30]? = some num) (csv : Bytes) :
    parseFn r csv =
      if num.toNat = 0 then .ok []
      else if r.length < deviceCount csv * (num.toNat + 2) - 2 then
        .error ⟨.protoIndex, .index (deviceCount csv) (failingJ r.length num.toNat (deviceCount csv))
          (parseIndex r.length num.toNat (deviceCount csv) (failingJ r.length num.toNat (deviceCount csv)))⟩
      else .ok (regionValues r num.toNat (deviceCount csv)) := by
  obtain ⟨hlen, -⟩ := List.getElem?_eq_some_iff.mp hbyte
  have hwidth : r.getD 30 0 = num := by rw [List.getD_eq_getElem?_getD, hbyte, Option.getD_some]
  simp only [parseFn, hwidth, Nat.not_le.mpr hlen, false_or]

/-- What a read reports of its response (R299, R302). -/
def parseOutcome (r csv : Bytes) : CommandOutcome :=
  match parseFn r csv with
  | .error e => errOutcome e
  | .ok values => .ok values

/-- PARSE computes the closed form. -/
theorem commandOutcome_of_parseResponse {s t : State} {r csv : Bytes} (hb : s.rbuf = some r)
    (ha : s.addrCsv = some csv) (h : parseResponse s = .next t) : commandOutcome t = parseOutcome r csv := by
  cases hbyte : r[30]? with
  | none =>
    have hlen : r.length ≤ 30 := List.getElem?_eq_none_iff.mp hbyte
    cases (parseResponse_of_short hb hlen).symm.trans h
    simp only [parseOutcome, parseFn_of_short hlen]
    rfl
  | some num =>
    have hfn := parseFn_of_width hbyte csv
    by_cases hnum : num = 0
    · subst hnum
      cases (parseResponse_of_width hb hbyte).symm.trans h
      simp only [parseOutcome, hfn]
      rfl
    · have hpos : num.toNat ≠ 0 := fun h0 => hnum (BitVec.eq_of_toNat_eq h0)
      rw [if_neg hpos] at hfn
      by_cases hshort : r.length < deviceCount csv * (num.toNat + 2) - 2
      · obtain ⟨regs, hparse⟩ := parseResponse_of_not_fits hb ha hbyte hnum hshort
        cases hparse.symm.trans h
        simp only [parseOutcome, hfn, if_pos hshort, commandOutcome_raise]
      · obtain ⟨regs, hparse⟩ := parseResponse_of_fits hb ha hbyte hnum (Nat.le_of_not_lt hshort)
        cases hparse.symm.trans h
        simp only [parseOutcome, hfn, if_neg hshort]
        rfl

/-- PARSE ends in DONE or in FAULT, and touches neither the transport state nor the host interface (R260, R299). -/
theorem parseResponse_ends {s t : State} (h : parseResponse s = .next t) :
    (t.phase = .done ∨ t.phase = .fault) ∧ t.transport = s.transport ∧ t.env = s.env := by
  obtain ⟨r, -, ⟨-, rfl⟩ | ⟨num, -, hwidth⟩⟩ := parseResponse_next h
  · exact ⟨.inl rfl, rfl, rfl⟩
  · obtain ⟨-, rfl⟩ | ⟨-, csv, -, regs, out, ⟨-, rfl⟩ | ⟨-, rfl⟩⟩ := parseWithWidth_next hwidth
    · exact ⟨.inl rfl, rfl, rfl⟩
    · exact ⟨.inl rfl, rfl, rfl⟩
    · exact ⟨.inr rfl, rfl, rfl⟩

/-- From PARSE two steps: PARSE, which keeps the transport state and the host interface, and END. -/
theorem endsWithin_of_parse {s : State} {r csv : Bytes} (hr : s.env.resetLine = false) (hp : s.phase = .parse)
    (hb : s.rbuf = some r) (ha : s.addrCsv = some csv) (n : Nat) :
    EndsWithin (n + 2) s (parseOutcome r csv) s.env := by
  obtain ⟨t, h⟩ := parseResponse_answers (s := s) (by rw [hb]; rfl) (by rw [ha]; rfl)
  obtain ⟨hend, htransport, henv⟩ := parseResponse_ends h
  have hstep : step s = .next t := by simp only [step_phase hr, hp, h]
  rw [← commandOutcome_of_parseResponse hb ha h, ← henv]
  exact .of_step hstep htransport (endsWithin_of_end (by rw [henv, hr]) hend n)

-- RECV and SEND in a run

/-- What a command of this kind reports of a draw of `receive` (R297, R298, R302). -/
def recvOutcome (k : Kind) (csv : Bytes) : RecvAnswer → CommandOutcome
  | .connErr => errOutcome ⟨.connRecv, .nothing⟩
  | .ioErr => errOutcome ⟨.ioRecv, .nothing⟩
  | .data [] => errOutcome ⟨.ioRecv, .nothing⟩
  | .data (b :: r) =>
    match k with
    | .read => parseOutcome (b :: r) csv
    | .write => .ok []

theorem answerReceive_transport (k : Kind) (a : RecvAnswer) (s : State) :
    (answerReceive k a s).transport = s.transport := by
  cases a with
  | connErr => rfl
  | ioErr => rfl
  | data r =>
    cases r with
    | nil => rfl
    | cons b r => exact takeResponse_transport k (b :: r) s

/-- What is left of a command after RECV has taken its draw: END, and for a read with a response PARSE before it. -/
theorem endsWithin_answerReceive {s : State} {csv : Bytes} (hr : s.env.resetLine = false)
    (ha : s.addrCsv = some csv) (k : Kind) (a : RecvAnswer) (n : Nat) :
    EndsWithin (n + 2) (answerReceive k a s) (recvOutcome k csv a) s.env := by
  cases a with
  | connErr => exact endsWithin_raise _ hr (n + 1)
  | ioErr => exact endsWithin_raise _ hr (n + 1)
  | data r =>
    cases r with
    | nil => exact endsWithin_raise _ hr (n + 1)
    | cons b r =>
      cases k with
      | read => exact endsWithin_of_parse (s := takeResponse .read (b :: r) s) hr rfl rfl ha n
      | write => exact endsWithin_of_end (s := takeResponse .write (b :: r) s) hr (.inl rfl) (n + 1)

theorem endsWithin_of_recv {s : State} {k : Kind} {csv : Bytes} {r : RecvAnswer} {recvs : List RecvAnswer}
    (hr : s.env.resetLine = false) (hp : s.phase = .recv) (hk : s.kind = some k) (ha : s.addrCsv = some csv)
    (hq : s.env.recvAnswers = r :: recvs) (n : Nat) :
    EndsWithin (n + 3) s (recvOutcome k csv (drawReceive r))
      (logReceive (drawReceive r) (leaveInStream r recvs) s).env := by
  have hstep : step s = .next (answerReceive k (drawReceive r)
      (logReceive (drawReceive r) (leaveInStream r recvs) s)) := by
    simp only [step_phase hr, hp, recvStep_of_answer hk hq]
  have hrest := endsWithin_answerReceive (s := logReceive (drawReceive r) (leaveInStream r recvs) s) hr ha k
    (drawReceive r) n
  exact .of_step hstep (answerReceive_transport _ _ _) hrest

/-- What a command reports once its frame is built, from the answer of `send` and the draw of `receive` (R296, R302). -/
def sendOutcome (k : Kind) (csv : Bytes) (a : SendAnswer) (draw : RecvAnswer) : CommandOutcome :=
  match a with
  | .ok => recvOutcome k csv draw
  | .connErr => errOutcome ⟨.connSend, .nothing⟩
  | .ioErr => errOutcome ⟨.ioSend, .nothing⟩

/-- The host interface after the calls of a command whose frame is built: `receive` is called only after an OK
(R296, R301). -/
def callsEnv (frame : Bytes) (a : SendAnswer) (sends : List SendAnswer) (r : RecvAnswer) (recvs : List RecvAnswer)
    (env : Env) : Env :=
  match a with
  | .ok => { env with
      sendAnswers := sends
      recvAnswers := leaveInStream r recvs
      trace := env.trace ++ [.send frame .ok] ++ [.receive Config.rxMaxLen (drawReceive r)] }
  | .connErr => { env with sendAnswers := sends, trace := env.trace ++ [.send frame .connErr] }
  | .ioErr => { env with sendAnswers := sends, trace := env.trace ++ [.send frame .ioErr] }

theorem endsWithin_of_send {s : State} {frame csv : Bytes} {k : Kind} {a : SendAnswer} {sends : List SendAnswer}
    {r : RecvAnswer} {recvs : List RecvAnswer} (hr : s.env.resetLine = false) (hp : s.phase = .send)
    (hf : s.frame = some frame) (hk : s.kind = some k) (ha : s.addrCsv = some csv)
    (hs : s.env.sendAnswers = a :: sends) (hq : s.env.recvAnswers = r :: recvs) (n : Nat) :
    EndsWithin (n + 4) s (sendOutcome k csv a (drawReceive r)) (callsEnv frame a sends r recvs s.env) := by
  have hstep := sendAnswers s frame a sends hr hp hf hs
  cases a with
  | ok =>
    have hrest := endsWithin_of_recv (s := { logSend frame .ok sends s with phase := .recv }) hr rfl hk ha hq n
    exact .of_step hstep rfl hrest
  | connErr =>
    have hrest := endsWithin_raise ⟨.connSend, .nothing⟩ (s := logSend frame .connErr sends s) hr (n + 2)
    exact .of_step hstep rfl hrest
  | ioErr =>
    have hrest := endsWithin_raise ⟨.ioSend, .nothing⟩ (s := logSend frame .ioErr sends s) hr (n + 2)
    exact .of_step hstep rfl hrest

-- BUILD in a run

/-- The descriptor registers hold the arguments of the command, as START latches them (R103, R291). -/
structure Latched (c : Command) (s : State) : Prop where
  family : s.family = some c.family
  kindStr : s.kindStr = some c.requestKind
  dtypeStr : s.dtypeStr = some c.dataType
  addrCsv : s.addrCsv = some c.deviceCsv
  valCsv : s.valCsv = some (c.valueCsv.getD (ascii ['0']))

theorem startCommand_latched (c : Command) (s : State) : Latched c (startCommand c s) := ⟨rfl, rfl, rfl, rfl, rfl⟩

/-- How BUILD of a command ends: it raises the error of `buildFn`, or its frame stands in FRAME with KIND and
ADDR_CSV for the phases after it (R292, R302). -/
inductive BuildEnds (c : Command) : State → Prop where
  | raised {e : Raise} {u : State} : buildFn c = .error e → BuildEnds c (raise e u)
  | built {frame : Bytes} {k : Kind} {t : State} : buildFn c = .ok frame → kindOfString c.requestKind = some k →
      t.phase = .send → t.frame = some frame → t.kind = some k → t.addrCsv = some c.deviceCsv → BuildEnds c t

theorem kindOfString_of_decodeDescriptor {kindStr dtypeStr : Bytes} {i : Instr}
    (h : decodeDescriptor kindStr dtypeStr = some i) : kindOfString kindStr = some (kindOf i) := by
  obtain ⟨k, hk, hi⟩ := Option.map_eq_some_iff.mp h
  obtain ⟨rfl, -⟩ := formOf_eq_iff.mp hi
  exact hk

/-- A form on the operands of the command ends as the build function says. -/
theorem exec_buildEnds {c : Command} {s t : State} {i : Instr} (hl : Latched c s)
    (hi : decodeDescriptor c.requestKind c.dataType = some i) (h : exec i s = .next t) : BuildEnds c t := by
  have hk := kindOfString_of_decodeDescriptor hi
  rw [exec_eq] at h
  cases hk' : kindOf i with
  | read =>
    rw [hk'] at h hk
    obtain ⟨csv, hcsv, ⟨e, hcheck, rfl⟩ | ⟨hcheck, family, hf, rfl⟩⟩ := buildRead_next h <;>
      cases hl.addrCsv.symm.trans hcsv
    · exact .raised (by simp only [buildFn, hi, hcheck])
    · cases hl.family.symm.trans hf
      exact .built (by simp only [buildFn, hi, hcheck, hk']) hk rfl rfl rfl hcsv
  | write =>
    rw [hk'] at h hk
    obtain ⟨csv, hcsv, ⟨e, hcheck, rfl⟩ | ⟨hcheck, vals, hv, hrest⟩⟩ := buildWrite_next h <;>
      cases hl.addrCsv.symm.trans hcsv
    · exact .raised (by simp only [buildFn, hi, hcheck])
    · cases hl.valCsv.symm.trans hv
      obtain ⟨e, he, rfl⟩ | ⟨he, family, hf, rfl⟩ := hrest
      · exact .raised (by simp only [buildFn, hi, hcheck, hk', he])
      · cases hl.family.symm.trans hf
        exact .built (by simp only [buildFn, hi, hcheck, hk', he]) hk rfl rfl rfl hcsv

/-- BUILD of a command computes the build function, and touches neither the transport state nor the host interface. -/
theorem step_build {c : Command} {s : State} (hl : Latched c s) (hr : s.env.resetLine = false)
    (hp : s.phase = .build) :
    ∃ t, step s = .next t ∧ t.transport = s.transport ∧ t.env = s.env ∧ BuildEnds c t := by
  have hstep : step s = buildStep s := by simp only [step_phase hr, hp]
  rw [hstep]
  cases hi : decodeDescriptor c.requestKind c.dataType with
  | none =>
    have hk : kindOfString c.requestKind = none := Option.map_eq_none_iff.mp hi
    exact ⟨_, buildStep_of_kindOfString_eq_none hl.kindStr hk, rfl, rfl, .raised (by simp only [buildFn, hi])⟩
  | some i =>
    rw [buildStep_of_decodeDescriptor hl.kindStr hl.dtypeStr hi]
    have haddr : s.addrCsv.isSome = true := by rw [hl.addrCsv]; rfl
    have hfamily : s.family.isSome = true := by rw [hl.family]; rfl
    have hval : s.valCsv.isSome = true := by rw [hl.valCsv]; rfl
    obtain ⟨t, h⟩ := exec_answers i haddr hfamily hval
    exact ⟨t, h, exec_transport h, exec_env h, exec_buildEnds hl hi h⟩

-- The function of a command

theorem commandFn_of_error {c : Command} {e : Raise} (hb : buildFn c = .error e) (a : SendAnswer) (draw : RecvAnswer) :
    commandFn c a draw = errOutcome e := by
  simp only [commandFn, hb]

theorem commandFn_of_ok {c : Command} {frame : Bytes} {k : Kind} (hb : buildFn c = .ok frame)
    (hk : kindOfString c.requestKind = some k) (a : SendAnswer) (draw : RecvAnswer) :
    commandFn c a draw = sendOutcome k c.deviceCsv a draw := by
  simp only [commandFn, hb, hk]
  cases a with
  | connErr => rfl
  | ioErr => rfl
  | ok =>
    cases draw with
    | connErr => rfl
    | ioErr => rfl
    | data r =>
      cases r with
      | nil => rfl
      | cons b r => cases k <;> rfl

/-- Where the build raises, no call is made and no answer is taken (R301, R302). -/
theorem commandEnv_of_error {c : Command} {e : Raise} (hb : buildFn c = .error e) {later : List CallerAct}
    {a : SendAnswer} {sends : List SendAnswer} {r : RecvAnswer} {recvs : List RecvAnswer} {env : Env}
    (hs : env.sendAnswers = a :: sends) (hq : env.recvAnswers = r :: recvs) :
    commandEnv c later a sends r recvs (commandEvents c a (drawReceive r)) env =
      giveOutcome (commandFn c a (drawReceive r)) { env with caller := later } := by
  simp [giveOutcome, commandEnv, commandEvents, hb, ← hs, ← hq, Except.isOk, Except.toBool]

/-- Where the build succeeds, the calls are those of its frame (R301, R302). -/
theorem commandEnv_of_ok {c : Command} {frame : Bytes} (hb : buildFn c = .ok frame) {later : List CallerAct}
    {a : SendAnswer} {sends : List SendAnswer} {r : RecvAnswer} {recvs : List RecvAnswer} {env : Env}
    (hq : env.recvAnswers = r :: recvs) :
    commandEnv c later a sends r recvs (commandEvents c a (drawReceive r)) env =
      giveOutcome (commandFn c a (drawReceive r)) (callsEnv frame a sends r recvs { env with caller := later }) := by
  cases a <;> simp [giveOutcome, commandEnv, commandEvents, callsEnv, hb, ← hq, Except.isOk, Except.toBool]

-- The obligations

/-- Settles O37: outside IDLE by the cases of a step, in IDLE by the START itself. -/
theorem startLatchesTheDescriptor : Obligations.StartLatchesTheDescriptor := by
  refine ⟨fun _ _ => step_admits_no_act, fun s c later hr hp hc => ?_⟩
  rw [step_start hr hp hc]
  obtain ⟨_, _, _, _, _ | _⟩ := c <;> rfl

/-- Settles O42: the outcome that END hands over is RESULT in DONE and the error status in FAULT. -/
theorem endReturnsToReset : Obligations.EndReturnsToReset := by
  refine fun s hr => ⟨fun hp => ?_, fun hp => ?_⟩
  · rw [step_end hr (.inl hp), endCommand_eq_endState, commandOutcome_of_done hp]
    rfl
  · rw [step_end hr (.inr hp), endCommand_eq_endState, commandOutcome_of_fault hp]
    rfl

/-- Settles O46, by the cases of a step. -/
theorem phaseTransitions : Obligations.PhaseTransitions := by
  intro s t h
  cases step_cases h with
  | reset hr => cases s.phase <;> simp [hr]
  | wait hp => rcases hp with hp | hp | hp <;> simp [hp]
  | @act a _ hp _ => cases a <;> simp [hp, callerAct]
  | badKind hp => simp [hp]
  | form hp he => rcases exec_phase he with ht | ht <;> simp [hp, ht]
  | sent hp _ => simp [hp]
  | sendFailed hp _ => simp [hp]
  | @received k _ _ hp hk _ _ => cases k <;> simp [hp, hk]
  | receiveFailed hp _ => simp [hp]
  | noData _ hp => simp [hp]
  | parsed hp => simp [hp]
  | parseFailed hp => simp [hp]
  | ended hp => rcases hp with hp | hp <;> simp [hp]

/-- Settles O45: of the cases of a step only an answered call and a reset in SEND log an event. -/
theorem oneTransportEventAStep : Obligations.OneTransportEventAStep := by
  intro s t h
  cases step_cases h with
  | reset hr =>
    obtain ⟨frame, hp, hf, he⟩ | ⟨-, he⟩ := abandonCommand_cases s
    · exact .inr (.inr (.inr ⟨hp, hr, rfl, frame, _, hf, by rw [takeReset_env, he]⟩))
    · exact .inl (by rw [takeReset_env, he])
  | @act a => cases a <;> exact .inl rfl
  | form _ he => exact .inl (by rw [exec_env he])
  | sent hp hf => exact .inr (.inl ⟨hp, .inl rfl, _, _, hf, rfl⟩)
  | sendFailed hp hf => exact .inr (.inl ⟨hp, .inr rfl, _, _, hf, rfl⟩)
  | @received k _ _ hp _ _ _ =>
    cases k with
    | read => exact .inr (.inr (.inl ⟨hp, .inl rfl, _, rfl⟩))
    | write => exact .inr (.inr (.inl ⟨hp, .inr (.inl rfl), _, rfl⟩))
  | receiveFailed hp _ => exact .inr (.inr (.inl ⟨hp, .inr (.inr rfl), _, rfl⟩))
  | _ => exact .inl rfl

/-- Settles O48: START, then BUILD, and where the frame is built the phases after it; each end is that of the
command's function. -/
theorem commandRefinesItsFunction : Obligations.CommandRefinesItsFunction := by
  intro s c later a sends r recvs hp hr hc hs hq
  have hstart := step_start hr hp hc
  obtain ⟨t, hstep, htransport, henv, hends⟩ := step_build (startCommand_latched c (s.withCaller later)) hr rfl
  have afterBuild {o : CommandOutcome} {env : Env} (hrun : EndsWithin 4 t o env) : EndsWithin 6 s o env :=
    (hrun.of_step hstep htransport).of_step hstart rfl
  have hrt : t.env.resetLine = false := by rw [henv]; exact hr
  cases hends with
  | @raised e u hb =>
    have hrun : EndsWithin 4 (raise e u) (errOutcome e) (raise e u).env := endsWithin_raise e hrt 3
    rw [henv] at hrun
    rw [commandEnv_of_error hb hs hq, commandFn_of_error hb]
    exact afterBuild hrun
  | @built frame k _ hb hk ht hframe hkind haddr =>
    have hst : t.env.sendAnswers = a :: sends := by rw [henv]; exact hs
    have hqt : t.env.recvAnswers = r :: recvs := by rw [henv]; exact hq
    have hrun := endsWithin_of_send hrt ht hframe hkind haddr hst hqt 0
    rw [henv] at hrun
    rw [commandEnv_of_ok hb hq, commandFn_of_ok hb hk]
    exact afterBuild hrun

end Sys2Proof.Machine
end

section
/-! The family of spec/60_exceptions.md: the codes of the causes (R321) and the effect of `raise` (R324). -/

namespace Sys2Proof.Machine

/-- Settles O31: `raise` is this record update, so each field is the one written or the one of `s`. -/
theorem raiseEffect : Obligations.RaiseEffect := fun _ _ => rfl

/-- Settles O32, row by row of R321's table. -/
theorem causeCodes : Obligations.CauseCodes := ⟨rfl, rfl, rfl, rfl, rfl, rfl, rfl, rfl, rfl, rfl⟩

end Sys2Proof.Machine
end

section
/-! The family of spec/70_reset_and_hazards.md: what a reset abandons in each phase (R351), and the sequencer's
invariant after reset (R350). -/

namespace Sys2Proof.Machine

/-- In SEND with a frame, the bytes handed over before the reset are logged as one event (R351). -/
theorem abandonCommand_of_send {s : State} {frame : Bytes} (hp : s.phase = .send) (hf : s.frame = some frame) :
    abandonCommand s =
      { s.env with
        trace := s.env.trace ++ [.sendAbandoned (frame.take (Config.handedOver s.env.abandonedSends))]
        abandonedSends := s.env.abandonedSends + 1 } := by
  simp only [abandonCommand, hp, hf]

/-- With nothing being handed over, a reset adds no event and takes none back (R351, D23). -/
theorem abandonCommand_of_nothing_sending {s : State} (h : s.phase ≠ .send ∨ s.frame = none) :
    abandonCommand s = s.env := by
  obtain ⟨frame, hp, hf, -⟩ | ⟨-, he⟩ := abandonCommand_cases s
  · simp [hp, hf] at h
  · exact he

/-- A step with the reset line asserted: all that depends on the phase is the host interface (R351). -/
theorem step_reset_of_abandonCommand {s : State} {env : Env} (hr : s.env.resetLine = true)
    (he : abandonCommand s = env) :
    step s = .next { State.reset with transport := s.transport, env := { env with resetLine := false } } := by
  rw [step_reset hr, ← he]
  rfl

/-- Settles O43: by the two cases of what a reset abandons. -/
theorem resetAbandonsTheCommand : Obligations.ResetAbandonsTheCommand := fun _ hr =>
  ⟨fun h => step_reset_of_abandonCommand hr (abandonCommand_of_nothing_sending h),
    fun _ hp hf => step_reset_of_abandonCommand hr (abandonCommand_of_send hp hf)⟩

/-- Settles O52: resetting the block again changes nothing. -/
theorem resetIsCoherent : Obligations.ResetIsCoherent := coherent_of_blockReset rfl

end Sys2Proof.Machine
end
